-- ==== Sys2Proof/Word.lean ====
section
/-! DEFINITION. The word types of the block (00_scope.md R7, R10; 30_encoding.md R120, R121). -/

namespace Sys2Proof

/-- `u8` (R7): a byte. -/
abbrev Byte := BitVec 8

/-- `u16` (R7): a CRC value. -/
abbrev Half := BitVec 16

/-- `b32` (R10): a 32-bit pattern read as an IEEE 754 binary32 value. -/
abbrev B32 := BitVec 32

/-- `W` (R121): the 112-bit command bundle. -/
abbrev Bundle := BitVec 112

end Sys2Proof
end

