-- ==== Sys2Proof/Syntax.lean ====
section
/-! DEFINITION. The ops of the block, one constructor per row of the op map (30_encoding.md R123), and the pseudo-ops of the
assembler (R142). An operand's type holds exactly the values the encoding admits: a whole byte or a whole 32-bit pattern (R124). -/

namespace Sys2Proof

/-- An op with the operands it reads (R123, R124). -/
inductive Instr where
  /-- 0x00 NOP (R160). -/
  | nop
  /-- 0x10 CRC_INIT (R182). -/
  | crcInit
  /-- 0x11 CRC_BYTE: `imm` = data byte (R183). -/
  | crcByte (d : Byte)
  /-- 0x20 RX_FEED: `imm` = received byte (R202). -/
  | rxFeed (d : Byte)
  /-- 0x21 RX_RESET (R210). -/
  | rxReset
  /-- 0x30 TX_PL_WRITE: `a[7:0]` = index, `imm` = data byte (R241). -/
  | txPlWrite (idx d : Byte)
  /-- 0x31 TX_ACK: `imm` = cmd, `a[7:0]` = status (R242). -/
  | txAck (cmd status : Byte)
  /-- 0x32 TX_DATA: `imm` = cmd, `a[7:0]` = payload length (R243). -/
  | txData (cmd n : Byte)
  /-- 0x33 TX_REPORT: `imm` = cmd, `a` = temperature, `b` = voltage, `c` = current (R244). -/
  | txReport (cmd : Byte) (temp volt cur : B32)
  /-- 0x40 MED_PUSH: `a` = sample (R281). -/
  | medPush (x : B32)
  /-- 0x41 MED_EVAL (R282). -/
  | medEval
  /-- 0x42 MED_CLEAR (R283). -/
  | medClear
  /-- 0x50 MAF_PUSH: `a` = sample (R303). -/
  | mafPush (x : B32)
  /-- 0x51 MAF_CLEAR (R304). -/
  | mafClear
  /-- 0x52 MED_MAF (R305). -/
  | medMaf
  /-- 0x60 LUT_VERIFY (R336). -/
  | lutVerify
  /-- 0x61 LUT_LOOKUP: `a` = voltage (R337). -/
  | lutLookup (v : B32)
  /-- 0x70 MAP_SET_T4: `a` = T4 in degrees Celsius (R373). -/
  | mapSetT4 (t : B32)
  /-- 0x71 MAP_SET_T20: `a` = T20 in degrees Celsius (R374). -/
  | mapSetT20 (t : B32)
  /-- 0x72 MAP_CALC: `a` = temperature in degrees Celsius (R375). -/
  | mapCalc (t : B32)
  /-- 0x73 MAP_UPDATE: `a` = temperature in degrees Celsius (R376). -/
  | mapUpdate (t : B32)
  /-- 0x74 MAP_SET_CURRENT: `a` = current in mA (R377). -/
  | mapSetCurrent (cur : B32)
deriving DecidableEq, Repr

/-- The pseudo-ops of the assembler (R142): none has an op code of its own. -/
inductive Pseudo where
  | crcBytes (ds : List Byte)
  | crcOf (ds : List Byte)
  | rxBytes (ds : List Byte)
  | txPayload (ds : List Byte)
  | filterCycle (s0 s1 s2 s3 s4 : B32)
  | setCal (t4 t20 : B32)
deriving DecidableEq, Repr

end Sys2Proof
end

