-- ==== Sys2Proof/Decode.lean ====
section
/-! DEFINITION. The command bundle (30_encoding.md R120 to R126): its fields, the decoder, the encoder. -/

namespace Sys2Proof

/-- `op`, bits 7:0 of the bundle (R121). -/
def opField (w : Bundle) : Byte := w.extractLsb' 0 8

/-- `imm`, bits 15:8 (R121). -/
def immField (w : Bundle) : Byte := w.extractLsb' 8 8

/-- `a`, bits 47:16 (R121). -/
def aField (w : Bundle) : B32 := w.extractLsb' 16 32

/-- `b`, bits 79:48 (R121). -/
def bField (w : Bundle) : B32 := w.extractLsb' 48 32

/-- `c`, bits 111:80 (R121). -/
def cField (w : Bundle) : B32 := w.extractLsb' 80 32

/-- `a[7:0]`: an 8-bit index, length or status operand (R124). -/
def aByte (w : Bundle) : Byte := (aField w).extractLsb' 0 8

/-- `W = c ‖ b ‖ a ‖ imm ‖ op` (R121). -/
def packBundle (op imm : Byte) (a b c : B32) : Bundle := c ++ b ++ a ++ imm ++ op

/-- Why a bundle is no op. -/
inductive DecodeError where
  /-- An unassigned op code (R126, R161). Not a stop: the machine writes `rc <- ILLEGAL_OP` and goes on. -/
  | illegalOp (op : Byte)
deriving DecidableEq, Repr

/-- The op map of R123, total on bundles: an unassigned op code is rejected by name. Fields an op does not read are
ignored (R125). -/
def decode (w : Bundle) : Except DecodeError Instr :=
  match (opField w).toNat with
  | 0x00 => .ok .nop
  | 0x10 => .ok .crcInit
  | 0x11 => .ok (.crcByte (immField w))
  | 0x20 => .ok (.rxFeed (immField w))
  | 0x21 => .ok .rxReset
  | 0x30 => .ok (.txPlWrite (aByte w) (immField w))
  | 0x31 => .ok (.txAck (immField w) (aByte w))
  | 0x32 => .ok (.txData (immField w) (aByte w))
  | 0x33 => .ok (.txReport (immField w) (aField w) (bField w) (cField w))
  | 0x40 => .ok (.medPush (aField w))
  | 0x41 => .ok .medEval
  | 0x42 => .ok .medClear
  | 0x50 => .ok (.mafPush (aField w))
  | 0x51 => .ok .mafClear
  | 0x52 => .ok .medMaf
  | 0x60 => .ok .lutVerify
  | 0x61 => .ok (.lutLookup (aField w))
  | 0x70 => .ok (.mapSetT4 (aField w))
  | 0x71 => .ok (.mapSetT20 (aField w))
  | 0x72 => .ok (.mapCalc (aField w))
  | 0x73 => .ok (.mapUpdate (aField w))
  | 0x74 => .ok (.mapSetCurrent (aField w))
  | _ => .error (.illegalOp (opField w))

/-- The bundle of an op as the assembler writes it (R140): "Fields not named in the encoding column are zero". -/
def encode : Instr → Bundle
  | .nop => packBundle 0x00 0 0 0 0
  | .crcInit => packBundle 0x10 0 0 0 0
  | .crcByte d => packBundle 0x11 d 0 0 0
  | .rxFeed d => packBundle 0x20 d 0 0 0
  | .rxReset => packBundle 0x21 0 0 0 0
  | .txPlWrite idx d => packBundle 0x30 d (idx.setWidth 32) 0 0
  | .txAck cmd status => packBundle 0x31 cmd (status.setWidth 32) 0 0
  | .txData cmd n => packBundle 0x32 cmd (n.setWidth 32) 0 0
  | .txReport cmd temp volt cur => packBundle 0x33 cmd temp volt cur
  | .medPush x => packBundle 0x40 0 x 0 0
  | .medEval => packBundle 0x41 0 0 0 0
  | .medClear => packBundle 0x42 0 0 0 0
  | .mafPush x => packBundle 0x50 0 x 0 0
  | .mafClear => packBundle 0x51 0 0 0 0
  | .medMaf => packBundle 0x52 0 0 0 0
  | .lutVerify => packBundle 0x60 0 0 0 0
  | .lutLookup v => packBundle 0x61 0 v 0 0
  | .mapSetT4 t => packBundle 0x70 0 t 0 0
  | .mapSetT20 t => packBundle 0x71 0 t 0 0
  | .mapCalc t => packBundle 0x72 0 t 0 0
  | .mapUpdate t => packBundle 0x73 0 t 0 0
  | .mapSetCurrent cur => packBundle 0x74 0 cur 0 0

/-- The units that `op[7:4]` selects (R122). -/
inductive BlockUnit where
  | control | crc | rx | tx | med | maf | lut | map
deriving DecidableEq, Repr

/-- The unit of an op code (R122): codes 8..15 of `op[7:4]` are unassigned. -/
def unitOfOp (op : Byte) : Option BlockUnit :=
  match (op.extractLsb' 4 4).toNat with
  | 0 => some .control
  | 1 => some .crc
  | 2 => some .rx
  | 3 => some .tx
  | 4 => some .med
  | 5 => some .maf
  | 6 => some .lut
  | 7 => some .map
  | _ => none

/-- The instruction the decoder reads from a table row's bits `w`, of which the table gives `nbits` (log entry 1): the
bundle is one 112-bit word, every bit above `nbits` zero. -/
def decodeTableWord (nbits w : Nat) : Option Instr :=
  match decode (BitVec.ofNat 112 (w % 2 ^ nbits)) with
  | .ok i => some i
  | .error _ => none

end Sys2Proof
end

