-- ==== Sys2Proof/Config.lean ====
section
/-! DEFINITION. What an implementation fixes (R6) and the free values: constants without a body, so that no proof can
see what they are. -/

namespace Sys2Proof

/-- The OPEN parameters of 00_scope.md R6 that a rule of the machine reads. "Named parameters (OPEN) that a model takes as
arguments": State carries them, no step writes them (log entry 4). -/
structure Params where
  /-- `TABLE_MAGIC`, 32-bit. -/
  tableMagic : BitVec 32
  /-- `TABLE_MAX_POINTS`, an integer 1..65535. -/
  tableMaxPoints : BitVec 16
  /-- `TBL_BYTES`, the byte size of the table memory. -/
  tblBytes : Nat
  /-- `TBL_AW`, the width of a table address. -/
  tblAw : Nat
deriving DecidableEq, Repr

/-- The value of `TABLE_MAGIC`: the source gives none (R6, 91_not_in_source.md N7). -/
opaque Config.tableMagic : BitVec 32

/-- `TABLE_MAX_POINTS` less one: the source gives no value; R6 bounds it to 1..65535. -/
opaque Config.maxPointsLessOne : Fin 65535

/-- The bytes of the table memory beyond the least size R6 allows. -/
opaque Config.spareTblBytes : Nat

/-- The address bits of the table port beyond enough. -/
opaque Config.spareTblAw : Nat

/-- `TABLE_MAX_POINTS` of this implementation. -/
def Config.tableMaxPoints : BitVec 16 := BitVec.ofNat 16 (Config.maxPointsLessOne.val + 1)

/-- `TBL_BYTES` of this implementation: at least `8 + 8 * TABLE_MAX_POINTS` (R6). -/
def Config.tblBytes : Nat := Config.spareTblBytes + 8 * Config.tableMaxPoints.toNat + 8

/-- The parameters of this implementation: any that meet R6's constraints. -/
def Config.params : Params where
  tableMagic := Config.tableMagic
  tableMaxPoints := Config.tableMaxPoints
  tblBytes := Config.tblBytes
  tblAw := Config.spareTblAw + Nat.clog 2 Config.tblBytes

/-- `LAT(op)` less one (R6: at least 1; R450, R458: no rule depends on it). -/
opaque Config.latencyLessOne : Byte → Nat

/-- A free 32-bit value, one for each number (R453: "take any value, each within its type"). -/
opaque Config.freeWord : Nat → B32

/-- A free bit, one for each number (R453). -/
opaque Config.freeBit : Nat → Bool

/-- What a byte read port shows while `cmd_ready = 0`, one value for each clock and address (R451). -/
opaque Config.anyPortByte : Nat → Nat → Byte

/-- What a 32-bit read port shows while `cmd_ready = 0`, one value for each clock and address (R451). -/
opaque Config.anyPortWord : Nat → Nat → B32

/-- Which address stands on the table port in a clock, one value for each clock (R55: "the request and response handshake is
implementation-defined"). -/
opaque Config.anyTblAddr : Nat → Nat

end Sys2Proof
end

