-- ==== Sys2Proof/Machine/Binary32.lean ====
section
/-! DEFINITION. binary32 arithmetic (00_scope.md R10 to R16). The format and the operation semantics are those of IEEE 754,
which the spec cites from general knowledge (R10, R11, R13 to R15; log entry 16). -/

namespace Sys2Proof.Machine

/-! The named constants of R16. -/

/-- `F_4`, 4.0. -/
def f4 : B32 := 0x40800000#32
/-- `F_12`, 12.0. -/
def f12 : B32 := 0x41400000#32
/-- `F_16`, 16.0. -/
def f16 : B32 := 0x41800000#32
/-- `F_20`, 20.0. -/
def f20 : B32 := 0x41A00000#32
/-- `F_K`, 273.15 rounded to nearest (R16, R335). -/
def fK : B32 := 0x43889333#32
/-- `PZERO`. -/
def pZero : B32 := 0x00000000#32
/-- `NZERO`. -/
def nZero : B32 := 0x80000000#32
/-- `CNAN`, the canonical NaN (R12). -/
def cNaN : B32 := 0x7FC00000#32
/-- `PINF`. -/
def pInf : B32 := 0x7F800000#32
/-- `NINF`. -/
def nInf : B32 := 0xFF800000#32

/-- Bit 31, the sign (R10). -/
def signBit (x : B32) : Bool := x.getLsbD 31

/-- Bits 30:23, the biased exponent (R10). -/
def expField (x : B32) : Nat := (x.extractLsb' 23 8).toNat

/-- Bits 22:0, the fraction (R10). -/
def fracField (x : B32) : Nat := (x.extractLsb' 0 23).toNat

/-- "Patterns with exponent 0xFF and fraction not 0 are NaN" (R10, R13). -/
def isNaN (x : B32) : Bool := expField x == 255 && fracField x != 0

/-- "Patterns with exponent 0xFF and fraction 0 are ±infinity" (R10). -/
def isInf (x : B32) : Bool := expField x == 255 && fracField x == 0

/-- Neither NaN nor an infinity (R10). -/
def isFinite (x : B32) : Bool := expField x != 255

/-- A zero of either sign. -/
def isZero (x : B32) : Bool := expField x == 0 && fracField x == 0

/-- The magnitude of a finite pattern in units of 2^-149, the least subnormal: subnormals are kept, not flushed (R10). -/
def magUnits (x : B32) : Nat :=
  if expField x = 0 then fracField x else (2 ^ 23 + fracField x) * 2 ^ (expField x - 1)

/-- `value(x)`: "the exact rational value of a finite binary32 pattern" (R15). -/
def value (x : B32) : ℚ :=
  mkRat (if signBit x then -(magUnits x : Int) else (magUnits x : Int)) (2 ^ 149)

/-- The magnitude bits nearest to `n / d` units of 2^-149, ties to the even pattern; at or above 2^128 − 2^103 the bits of
infinity (R15). `sh` is how far the quotient exceeds 24 bits; a carry out of the fraction moves on to the next exponent by
itself, because magnitude bits are ordered as the values are. -/
def roundMag (n d : Nat) : Nat :=
  let sh := Nat.log2 (n / d) - 23
  let den := d * 2 ^ sh
  let q := n / den
  let r := n % den
  let q' := if den < 2 * r ∨ (2 * r = den ∧ q % 2 = 1) then q + 1 else q
  min (sh * 2 ^ 23 + q') 0x7F800000

/-- A magnitude with a sign. -/
def withSign (neg : Bool) (mag : Nat) : B32 :=
  if neg then BitVec.ofNat 32 mag ||| nZero else BitVec.ofNat 32 mag

/-- The pattern nearest to the magnitude of `q`, with the given sign. -/
def roundSigned (neg : Bool) (q : ℚ) : B32 :=
  withSign neg (roundMag (q.num.natAbs * 2 ^ 149) q.den)

/-- `round32(q)` (R15): +0 for `q = 0`; a `q` that is not 0 keeps its sign even where it rounds to a zero (R302). -/
def round32 (q : ℚ) : B32 := roundSigned (decide (q < 0)) q

/-- `fadd` (R11, R12). An exact sum of zero is −0 only when both operands are −0. -/
def fadd (x y : B32) : B32 :=
  if isNaN x || isNaN y then cNaN
  else if isInf x then
    if isInf y && signBit x != signBit y then cNaN else x
  else if isInf y then y
  else if value x + value y = 0 then
    if signBit x && signBit y then nZero else pZero
  else round32 (value x + value y)

/-- `x` with its sign bit turned over. -/
def negPattern (x : B32) : B32 := x ^^^ nZero

/-- `fsub` (R11, R12): `x + (−y)`. -/
def fsub (x y : B32) : B32 := fadd x (negPattern y)

/-- `fmul` (R11, R12). -/
def fmul (x y : B32) : B32 :=
  let neg := signBit x != signBit y
  if isNaN x || isNaN y then cNaN
  else if isInf x || isInf y then
    if isZero x || isZero y then cNaN else withSign neg pInf.toNat
  else roundSigned neg (value x * value y)

/-- `fdiv` (R11, R12): "Division of a non-zero, non-NaN value by ±0 gives an infinity with the exclusive-or of the signs". -/
def fdiv (x y : B32) : B32 :=
  let neg := signBit x != signBit y
  if isNaN x || isNaN y then cNaN
  else if isInf x then
    if isInf y then cNaN else withSign neg pInf.toNat
  else if isInf y then withSign neg 0
  else if isZero y then
    if isZero x then cNaN else withSign neg pInf.toNat
  else roundSigned neg (value x / value y)

/-- The place of a non-NaN pattern in the order of values: both zeros at 0, the infinities at the ends (R13). -/
def rank (x : B32) : Int :=
  let mag : Int := ((x.extractLsb' 0 31).toNat : Int)
  if signBit x then -mag else mag

/-- `flt` (R13): quiet `x < y`, false with a NaN. -/
def flt (x y : B32) : Bool := !isNaN x && !isNaN y && decide (rank x < rank y)

/-- `fgt` (R13): quiet `x > y`. -/
def fgt (x y : B32) : Bool := !isNaN x && !isNaN y && decide (rank y < rank x)

/-- `fge` (R13): quiet `x ≥ y`. -/
def fge (x y : B32) : Bool := !isNaN x && !isNaN y && decide (rank y ≤ rank x)

/-- `fle` (R13): quiet `x ≤ y`. -/
def fle (x y : B32) : Bool := !isNaN x && !isNaN y && decide (rank x ≤ rank y)

/-- `feq` (R13): quiet `x = y`; +0 equals −0. -/
def feq (x y : B32) : Bool := !isNaN x && !isNaN y && decide (rank x = rank y)

/-- `key(x)` (R14): unsigned order of keys is the totalOrder predicate. -/
def key (x : B32) : BitVec 32 :=
  if signBit x then 0xFFFFFFFF#32 - x else x + 0x80000000#32

end Sys2Proof.Machine
end

