-- ==== Sys2Proof/Machine/State.lean ====
section
/-! DEFINITION. The state of the block (10_state.md), what can happen to it at a step, and how a step can stop. -/

namespace Sys2Proof.Machine

/-- `rx_state` (R33): each state names the field that the next byte is parsed as (R200). Value 7 "is never written" and has no
name here (log entry 13). -/
inductive RxState where
  | awaitingHead | gotCmd | gotLen | collectingPayload | gotCrcLow | gotCrcHigh | awaitingTail
deriving DecidableEq, Repr

/-- `rx_evt` (R37), the outcome of the most recent RX_FEED. Value 3 "is never written" (log entry 13). -/
inductive RxEvt where
  | none | frameOk | crcErr
deriving DecidableEq, Repr

/-- `rc` (R31, R400). Values 0x04 to 0xFF "are never written" (log entry 13). -/
inductive ResultCode where
  | ok | illegalOp | medNotFull | tblInvalid
deriving DecidableEq, Repr

/-- The event output of an op (R63): at most one. -/
inductive Event where
  | none
  /-- `ev_frame_ok`: RX_FEED completed a frame whose CRC matches. -/
  | frameOk (cmd len : Byte)
  /-- `ev_crc_err`: RX_FEED completed a frame whose CRC does not match. -/
  | crcErr (cmd : Byte)
  /-- `ev_tx_ready`: TX_ACK, TX_DATA, TX_REPORT. -/
  | txReady (len : BitVec 9)
  /-- `ev_iout_upd`: MAP_UPDATE, MAP_SET_CURRENT. -/
  | ioutUpdate (x : B32)
deriving DecidableEq, Repr

/-- What the controller and the platform do at one step (log entry 2). -/
inductive Input where
  /-- The controller offers a bundle, which is accepted (R450) and runs to its completion. `tblWrites` are the bytes the
  provisioning writer writes to the table from the acceptance to the completion: none, if it keeps R90 (a) and R453. -/
  | op (w : Bundle) (tblWrites : List Host.Cell)
  /-- A clock at which `rst = 0` and `cmd_valid = 0` (R417). -/
  | quiet
  /-- A rising edge at which `rst = 1` (R440). -/
  | reset
  /-- Between ops the provisioning writer writes one byte of the table (R90 (a)). -/
  | tblWrite (addr : Nat) (b : Byte)
deriving DecidableEq, Repr

/-- A byte memory as the list of its entries that differ from what an unlisted address reads as, addresses strictly rising
(`Memory.wf`). -/
abbrev Memory := List Host.Cell

/-- The state of the block (R31 to R49), its event output (R63), the table memory beside it (R80), its open parameters (R6)
and, last, three fields of the model (log entry 9). -/
structure State where
  /-- R31: result code of the most recently completed op. -/
  rc : ResultCode
  /-- R63: the event of the most recently completed op. -/
  event : Event
  /-- R32: standalone CRC16 accumulator. -/
  crcAcc : Half
  /-- R33: frame parser state. -/
  rxState : RxState
  /-- R34: command byte of the frame being parsed or last parsed. -/
  rxCmd : Byte
  /-- R34: its length byte. -/
  rxLen : Byte
  /-- R34: payload bytes received so far. -/
  rxIdx : Byte
  /-- R35: the CRC received on the wire. -/
  rxCrcRx : Half
  /-- R35: the running CRC. -/
  rxCrcCalc : Half
  /-- R36: receive payload buffer. -/
  rxBuf : Vector Byte 256
  /-- R37: outcome of the most recent RX_FEED. -/
  rxEvt : RxEvt
  /-- R38: frame-valid flag. -/
  rxFv : Bool
  /-- R39: payload staging buffer. -/
  txPl : Vector Byte 256
  /-- R40: the most recently encoded frame. -/
  txBuf : Vector Byte 261
  /-- R40: its length in bytes. -/
  txLen : BitVec 9
  /-- R41: ring of raw samples. -/
  medBuf : Vector B32 5
  /-- R41: next ring slot to write, 0..4. -/
  medWr : Fin 5
  /-- R41: number of valid samples, 0..5. -/
  medCnt : Fin 6
  /-- R42: most recent median. -/
  medOut : B32
  /-- R43: moving-average window. -/
  mafWin : Vector B32 16
  /-- R43: next slot to write. -/
  mafWr : Fin 16
  /-- R43: entries in the window, 0..16. -/
  mafCnt : Fin 17
  /-- R44: current running mean. -/
  mafOut : B32
  /-- R46: result of the most recent table verification. -/
  lutOk : Bool
  /-- R46: most recent lookup result in kelvin. -/
  lutK : B32
  /-- R46: that result in degrees Celsius. -/
  lutC : B32
  /-- R47: calibration temperature of the 4 mA point. -/
  mapT4 : B32
  /-- R47: calibration temperature of the 20 mA point. -/
  mapT20 : B32
  /-- R48: result of the most recent MAP_CALC or MAP_UPDATE. -/
  mapRes : B32
  /-- R49: output current setpoint in mA. -/
  iOut : B32
  /-- R80: the table memory, outside the block and read-only to it. -/
  tbl : Memory
  /-- R6: the open parameters; no step writes them. -/
  params : Params
  /-- The model's own: what the controller and the platform do at the steps to come. -/
  inputs : List Input
  /-- The model's own: the table's bytes change during the op being executed (R453). -/
  tblRace : Bool
  /-- The model's own: how many free values have been used. -/
  freeIdx : Nat
deriving DecidableEq, Repr

/-- How a step can stop with a fault. The block itself has no exceptions and no traps (R401, R408). -/
inductive Fault where
  /-- An access to a table address at or above `TBL_BYTES`, which does not exist (R80): a read of a LUT op, which parameters
  that meet R6 rule out (R87), or a write of the provisioning writer. Safe: the model stops (log entry 10). -/
  | tblOutOfRange
deriving DecidableEq, Repr

/-- How a step can stop with a refusal. -/
inductive Refusal where
  /-- An op without a meaning: no arm of `exec` answers it. Safe. -/
  | notModelled (mnemonic : String)
  /-- Clock grain only: an op offered before `rst` has been asserted once after power-up (R441; 93_implementation_defined.md
  item 4 says `refuse`). Raised by `tick`. Safe: the model stops (log entry 12). -/
  | opBeforeReset
deriving DecidableEq, Repr

/-- The state after reset (R64). The table memory is not reset (R442): here nothing is listed. The parameters are those of
this implementation; the model's own fields are at 0 (log entry 9). -/
def State.reset : State where
  rc := .ok
  event := .none
  crcAcc := 0xFFFF#16
  rxState := .awaitingHead
  rxCmd := 0
  rxLen := 0
  rxIdx := 0
  rxCrcRx := 0x0000#16
  rxCrcCalc := 0xFFFF#16
  rxBuf := Vector.replicate 256 0
  rxEvt := .none
  rxFv := false
  txPl := Vector.replicate 256 0
  txBuf := Vector.replicate 261 0
  txLen := 0
  medBuf := Vector.replicate 5 pZero
  medWr := 0
  medCnt := 0
  medOut := pZero
  mafWin := Vector.replicate 16 pZero
  mafWr := 0
  mafCnt := 0
  mafOut := pZero
  lutOk := false
  lutK := pZero
  lutC := pZero
  mapT4 := pZero
  mapT20 := pZero
  mapRes := pZero
  iOut := f4
  tbl := []
  params := Config.params
  inputs := []
  tblRace := false
  freeIdx := 0

end Sys2Proof.Machine
end

