-- ==== Sys2Proof/Machine/Flags.lean ====
section
/-! DEFINITION. The block has no flags register (10_state.md R30): what stands for flags is the result code `rc`, the parser's
outcome `rx_evt` and the event output. Their numeric codes, and the named updates that every op uses. -/

namespace Sys2Proof.Machine

/-- The value of `rc` (R400). -/
def ResultCode.code : ResultCode → Byte
  | .ok => 0x00#8
  | .illegalOp => 0x01#8
  | .medNotFull => 0x02#8
  | .tblInvalid => 0x03#8

/-- The value of `rx_state` (R33). -/
def RxState.code : RxState → BitVec 3
  | .awaitingHead => 0
  | .gotCmd => 1
  | .gotLen => 2
  | .collectingPayload => 3
  | .gotCrcLow => 4
  | .gotCrcHigh => 5
  | .awaitingTail => 6

/-- The value of `rx_evt` (R37). -/
def RxEvt.code : RxEvt → BitVec 2
  | .none => 0
  | .frameOk => 1
  | .crcErr => 2

/-- `ev_frame_ok` (R63). -/
def Event.isFrameOk : Event → Bool
  | .frameOk _ _ => true
  | .none | .crcErr _ | .txReady _ | .ioutUpdate _ => false

/-- `ev_crc_err` (R63). -/
def Event.isCrcErr : Event → Bool
  | .crcErr _ => true
  | .none | .frameOk _ _ | .txReady _ | .ioutUpdate _ => false

/-- `ev_tx_ready` (R63). -/
def Event.isTxReady : Event → Bool
  | .txReady _ => true
  | .none | .frameOk _ _ | .crcErr _ | .ioutUpdate _ => false

/-- `ev_iout_upd` (R63). -/
def Event.isIoutUpdate : Event → Bool
  | .ioutUpdate _ => true
  | .none | .frameOk _ _ | .crcErr _ | .txReady _ => false

/-- `rc <- code` (R8): "Exactly one `rc` value is written per op, as the last effect of the op" (R162). -/
def State.setRc (s : State) (code : ResultCode) : State := { s with rc := code }

/-- `emit E` (R8). -/
def State.emit (s : State) (e : Event) : State := { s with event := e }

/-- The event pulse of the op before ends: it lasts "exactly one clock" (R452; log entry 7). -/
def State.endPulse (s : State) : State := { s with event := .none }

end Sys2Proof.Machine
end

