-- ==== Sys2Proof/Machine/Control.lean ====
section
/-! DEFINITION. Control ops (40_control.md). -/

namespace Sys2Proof.Machine

/-- NOP (R160): `rc <- OK`. -/
def execNop (s : State) : Host.Outcome State Fault Refusal := .next (s.setRc .ok)

end Sys2Proof.Machine
end

