-- ==== Sys2Proof/Machine/Operands.lean ====
section
/-! DEFINITION. Operand and byte helpers (00_scope.md R6, R7, R9). -/

namespace Sys2Proof.Machine

/-- `HEAD` (R6). -/
def headMarker : Byte := 0xAA#8

/-- `TAIL` (R6). -/
def tailMarker : Byte := 0x55#8

/-- `zext16(v)` (R7). -/
def zext16 (v : Byte) : Half := v.setWidth 16

/-- `v[7:0]` of a 16-bit value. -/
def lowByte (v : Half) : Byte := v.extractLsb' 0 8

/-- `v[15:8]` of a 16-bit value. -/
def highByte (v : Half) : Byte := v.extractLsb' 8 8

/-- `LE16(v)` (R9). -/
def le16 (v : Half) : List Byte := [lowByte v, highByte v]

/-- `LE32(v)` (R9). -/
def le32 (v : B32) : List Byte :=
  [v.extractLsb' 0 8, v.extractLsb' 8 8, v.extractLsb' 16 8, v.extractLsb' 24 8]

/-- The number `c0 + 256·c1 + ... + 256^(n-1)·c(n-1)` of a byte sequence (R9). -/
def leNumber : List Byte → Nat
  | [] => 0
  | c :: cs => c.toNat + 256 * leNumber cs

end Sys2Proof.Machine
end

