-- ==== Sys2Proof/Machine/Crc.lean ====
section
/-! DEFINITION. CRC16 generator (41_crc16.md). -/

namespace Sys2Proof.Machine

/-- `CRC_INIT` (R6). -/
def crcInitValue : Half := 0xFFFF#16

/-- `CRC_POLY` (R6), reflected form. -/
def crcPoly : Half := 0xA001#16

/-- One of the 8 shifts of R180: the bit tested is bit 0. -/
def crcShift (c : Half) : Half := if c.getLsbD 0 then (c >>> 1) ^^^ crcPoly else c >>> 1

/-- `CRC16Step(c, d)` (R180). -/
def crc16Step (c : Half) (d : Byte) : Half :=
  crcShift (crcShift (crcShift (crcShift (crcShift (crcShift (crcShift (crcShift (c ^^^ zext16 d))))))))

/-- `CRC16(s)` (R181): the left fold of `CRC16Step` from `CRC_INIT`. -/
def crc16 (bytes : List Byte) : Half := bytes.foldl crc16Step crcInitValue

/-- CRC_INIT (R182). -/
def execCrcInit (s : State) : Host.Outcome State Fault Refusal :=
  .next (({ s with crcAcc := crcInitValue } : State).setRc .ok)

/-- CRC_BYTE (R183). -/
def execCrcByte (d : Byte) (s : State) : Host.Outcome State Fault Refusal :=
  .next (({ s with crcAcc := crc16Step s.crcAcc d } : State).setRc .ok)

end Sys2Proof.Machine
end

