-- ==== Sys2Proof/Machine/Encoder.lean ====
section
/-! DEFINITION. Frame encoder (43_frame_encoder.md). -/

namespace Sys2Proof.Machine

/-- `body = [cmd, |p|] ++ p` (R240). -/
def frameBody (cmd : Byte) (p : List Byte) : List Byte := [cmd, BitVec.ofNat 8 p.length] ++ p

/-- `BuildFrame(cmd, p)` (R240, R130, R131). -/
def buildFrame (cmd : Byte) (p : List Byte) : List Byte :=
  [headMarker] ++ frameBody cmd p ++ le16 (crc16 (frameBody cmd p)) ++ [tailMarker]

/-- `for i in 0 .. |f|-1: tx_buf[i] <- f[i]` (R240), from entry `k` on. -/
def writeFrameFrom (buf : Vector Byte 261) (k : Nat) : List Byte → Vector Byte 261
  | [] => buf
  | b :: rest => writeFrameFrom (buf.setIfInBounds k b) (k + 1) rest

/-- `Emit(cmd, p)` (R240). -/
def State.emitFrame (s : State) (cmd : Byte) (p : List Byte) : State :=
  let f := buildFrame cmd p
  ({ s with txBuf := writeFrameFrom s.txBuf 0 f, txLen := BitVec.ofNat 9 f.length } : State).emit
    (.txReady (BitVec.ofNat 9 f.length))

/-- TX_PL_WRITE (R241). -/
def execTxPlWrite (idx d : Byte) (s : State) : Host.Outcome State Fault Refusal :=
  .next (({ s with txPl := s.txPl.set idx.toNat d idx.isLt } : State).setRc .ok)

/-- TX_ACK (R242). -/
def execTxAck (cmd status : Byte) (s : State) : Host.Outcome State Fault Refusal :=
  .next ((s.emitFrame cmd [status]).setRc .ok)

/-- TX_DATA (R243): the payload is `tx_pl[0] .. tx_pl[n-1]`. -/
def execTxData (cmd n : Byte) (s : State) : Host.Outcome State Fault Refusal :=
  .next ((s.emitFrame cmd (s.txPl.toList.take n.toNat)).setRc .ok)

/-- TX_REPORT (R244). -/
def execTxReport (cmd : Byte) (temp volt cur : B32) (s : State) : Host.Outcome State Fault Refusal :=
  .next ((s.emitFrame cmd (le32 temp ++ le32 volt ++ le32 cur)).setRc .ok)

end Sys2Proof.Machine
end

