-- ==== Sys2Proof/WellFormed.lean ====
section
/-! DEFINITION. What is well formed. Every term of `Instr` is: an operand's type holds exactly the values its field admits
(30_encoding.md R124; every value is legal, R202, R241, R281, R303, R373). What can be ill formed is a bundle (R125, R140),
a pseudo-op (R142) and a set of parameters (00_scope.md R6). -/

namespace Sys2Proof

/-- The operand fields an op reads (R123): `imm`, how many low bits of `a`, and `b` and `c` together. -/
structure FieldsRead where
  imm : Bool
  aBits : Nat
  bc : Bool
deriving DecidableEq, Repr

/-- The column "operands read" of R123; `none` for an unassigned op code. -/
def fieldsRead (op : Byte) : Option FieldsRead :=
  match op.toNat with
  | 0x00 | 0x10 | 0x21 | 0x41 | 0x42 | 0x51 | 0x52 | 0x60 => some ⟨false, 0, false⟩
  | 0x11 | 0x20 => some ⟨true, 0, false⟩
  | 0x30 | 0x31 | 0x32 => some ⟨true, 8, false⟩
  | 0x33 => some ⟨true, 32, true⟩
  | 0x40 | 0x50 | 0x61 | 0x70 | 0x71 | 0x72 | 0x73 | 0x74 => some ⟨false, 32, false⟩
  | _ => none

/-- A bundle as the assembler writes it: an assigned op code, and every field the op does not read zero (R125 "should be
written as zero", R140). A bundle that is not so still runs: unread fields are ignored. -/
def Bundle.wellFormed (w : Bundle) : Bool :=
  match fieldsRead (opField w) with
  | none => false
  | some f =>
    (f.imm || immField w == 0) &&
      decide ((aField w).toNat < 2 ^ f.aBits) &&
      (f.bc || (bField w == 0 && cField w == 0))

/-- A pseudo-op the assembler takes (R142): a byte list `d0, ..., dk` has at least one byte, and TX_PAYLOAD's has `k ≤ 255`. -/
def Pseudo.wellFormed : Pseudo → Bool
  | .crcBytes ds => !ds.isEmpty
  | .crcOf ds => !ds.isEmpty
  | .rxBytes ds => !ds.isEmpty
  | .txPayload ds => !ds.isEmpty && decide (ds.length ≤ 256)
  | .filterCycle _ _ _ _ _ => true
  | .setCal _ _ => true

/-- The constraints of R6: `TABLE_MAX_POINTS` in 1..65535, `TBL_BYTES ≥ 8 + 8 * TABLE_MAX_POINTS`, `2^TBL_AW ≥ TBL_BYTES`. -/
def Params.wf (p : Params) : Bool :=
  decide (1 ≤ p.tableMaxPoints.toNat) &&
    decide (8 + 8 * p.tableMaxPoints.toNat ≤ p.tblBytes) &&
    decide (p.tblBytes ≤ 2 ^ p.tblAw)

end Sys2Proof
end

