-- ==== Sys2Proof/Machine/Ops.lean ====
section
/-! DEFINITION. The table memory (20_memory.md), and what happens to the whole state: an illegal op code, a reset, a table
written during a LUT op. The block takes no exception and returns from none: "The block raises no exceptions and takes no
traps" (60_exceptions.md R401, R408, R409); its one shared answer to an error outside the ops is `State.illegalOp`. -/

namespace Sys2Proof.Machine

/-- What an address that the memory does not list reads as: 0x00. DESIGN CHOICE, unsafe (log entry 3). -/
def blankByte : Byte := 0x00#8

/-- The byte at an address. -/
def Memory.get : Memory → Nat → Byte
  | [], _ => blankByte
  | (k, b) :: rest, a => if k = a then b else Memory.get rest a

/-- The memory with one byte written, in canonical form again. -/
def Memory.write : Memory → Nat → Byte → Memory
  | [], a, b => if b = blankByte then [] else [(a, b)]
  | (k, c) :: rest, a, b =>
    if a < k then (if b = blankByte then (k, c) :: rest else (a, b) :: (k, c) :: rest)
    else if a = k then (if b = blankByte then rest else (a, b) :: rest)
    else (k, c) :: Memory.write rest a b

/-- Every listed address is at least `lo` and the next one above it, and no entry equals the blank byte. -/
def Memory.wfFrom : Nat → Memory → Bool
  | _, [] => true
  | lo, (k, b) :: rest => decide (lo ≤ k) && b != blankByte && Memory.wfFrom (k + 1) rest

/-- The canonical form: addresses strictly rising, no entry equal to what an unlisted address reads as. -/
def Memory.wf (m : Memory) : Bool := Memory.wfFrom 0 m

/-- `tbl_addr : TBL_AW` (10_state.md R55): an address as the table port carries it (log entry 22). -/
def tblAddr (p : Params) (a : Nat) : BitVec p.tblAw := BitVec.ofNat p.tblAw a

/-- `tbl_rdata : 8` (R55): the byte that the platform answers to an address on the port. -/
def tblRdata (p : Params) (m : Memory) (addr : BitVec p.tblAw) : Byte := m.get addr.toNat

/-- One byte read through the table port (R55), if the address exists: "addresses 0 .. TBL_BYTES−1" (R80). -/
def tblByte (p : Params) (m : Memory) (a : Nat) : Option Byte :=
  if a < p.tblBytes then some (tblRdata p m (tblAddr p a)) else none

/-- `MemRead(addr, n)` (R82): the `n` bytes at `addr .. addr+n−1`, little-endian; no value if an address does not exist. -/
def memRead (p : Params) (m : Memory) (a : Nat) : Nat → Option Nat
  | 0 => some 0
  | n + 1 =>
    match tblByte p m a, memRead p m (a + 1) n with
    | some b, some rest => some (b.toNat + 256 * rest)
    | _, _ => none

/-- The provisioning writer's bytes, in order; none if one of the addresses does not exist (R80). -/
def applyWrites (p : Params) (m : Memory) : List Host.Cell → Option Memory
  | [] => some m
  | c :: cs => if c.1 < p.tblBytes then applyWrites p (m.write c.1 c.2) cs else none

/-- "If the table changes during the op" (R453): some write differs from the byte that stands there. -/
def tblChanges (m : Memory) (cs : List Host.Cell) : Bool := cs.any fun c => m.get c.1 != c.2

/-- An unassigned op code: `rc <- ILLEGAL_OP` and nothing else (R126, R161). -/
def State.illegalOp (s : State) : State := s.setRc .illegalOp

/-- A rising edge with `rst = 1` (R440): "every state field of 10_state.md takes its reset value". The table memory keeps its
contents (R442), the parameters are not state of the block, and the model's inputs and count of free values go on. -/
def State.applyReset (s : State) : State :=
  { State.reset with tbl := s.tbl, params := s.params, inputs := s.inputs, freeIdx := s.freeIdx }

/-- The table changed during a LUT op (R453; 93_implementation_defined.md item 6): `lut_ok`, `lut_k`, `lut_c` and `rc` "take
any value", `rc` within OK and TBL_INVALID; the rest of the state is unaffected (log entry 8). -/
def State.lutRace (s : State) : State :=
  { s with
    lutOk := Config.freeBit s.freeIdx
    lutK := Config.freeWord s.freeIdx
    lutC := Config.freeWord (s.freeIdx + 1)
    rc := if Config.freeBit (s.freeIdx + 1) then .ok else .tblInvalid
    freeIdx := s.freeIdx + 2 }

end Sys2Proof.Machine
end

