-- ==== Sys2Proof/Machine/Lookup.lean ====
section
/-! DEFINITION. Voltage-to-temperature lookup (46_lookup.md). A function that reads the table has no value if it reads an
address that does not exist, which parameters that meet R6 rule out (20_memory.md R87; log entry 10). -/

namespace Sys2Proof.Machine

/-- The point count, `MemRead(4, 2)` (R83, R330). -/
def tblCount (p : Params) (m : Memory) : Option Nat := memRead p m 4 2

/-- `TblVerify()` (R330): magic, and point count in 1 .. `TABLE_MAX_POINTS`. Nothing else is checked. -/
def tblVerify (p : Params) (m : Memory) : Option Bool :=
  match memRead p m 0 4, tblCount p m with
  | some magic, some n =>
    some (decide (1 ≤ n) && decide (n ≤ p.tableMaxPoints.toNat) && magic == p.tableMagic.toNat)
  | _, _ => none

/-- `V(i) = MemRead(8 + 8·i, 4)` (R331). -/
def pointVolt (p : Params) (m : Memory) (i : Nat) : Option B32 :=
  (memRead p m (8 + 8 * i) 4).map (BitVec.ofNat 32)

/-- `T(i) = MemRead(12 + 8·i, 4)` (R331). -/
def pointTemp (p : Params) (m : Memory) (i : Nat) : Option B32 :=
  (memRead p m (12 + 8 * i) 4).map (BitVec.ofNat 32)

/-- The search loop of R333: `while hi - lo > 1`. Each turn narrows the window, so `hi - lo` turns are enough (log entry 18). -/
def searchPair (p : Params) (m : Memory) (v : B32) : Nat → Nat → Nat → Option (Nat × Nat)
  | 0, lo, hi => some (lo, hi)
  | turns + 1, lo, hi =>
    if 1 < hi - lo then
      let mid := (lo + hi) / 2
      match pointVolt p m mid with
      | none => none
      | some vm => if fgt vm v then searchPair p m v turns mid hi else searchPair p m v turns lo mid
    else some (lo, hi)

/-- The interpolation of R333, multiply before divide:
`fadd(T(lo), fdiv(fmul(fsub(v, V(lo)), fsub(T(hi), T(lo))), fsub(V(hi), V(lo))))`. -/
def interpolate (v vLo vHi tLo tHi : B32) : B32 :=
  fadd tLo (fdiv (fmul (fsub v vLo) (fsub tHi tLo)) (fsub vHi vLo))

/-- The interpolation between points `lo` and `hi` of the table (R333). -/
def interpolateAt (p : Params) (m : Memory) (v : B32) (lo hi : Nat) : Option B32 :=
  match pointVolt p m lo, pointVolt p m hi, pointTemp p m lo, pointTemp p m hi with
  | some vLo, some vHi, some tLo, some tHi => some (interpolate v vLo vHi tLo tHi)
  | _, _, _, _ => none

/-- `Lookup(v)` (R333) on a table of `n` points. -/
def lookupIn (p : Params) (m : Memory) (v : B32) (n : Nat) : Option B32 :=
  match pointVolt p m 0 with
  | none => none
  | some vFirst =>
    if fge v vFirst then pointTemp p m 0
    else match pointVolt p m (n - 1) with
      | none => none
      | some vLast =>
        if fle v vLast then pointTemp p m (n - 1)
        else if n = 1 then some cNaN
        else match searchPair p m v (n - 1) 0 (n - 1) with
          | some (lo, hi) => interpolateAt p m v lo hi
          | none => none

/-- `Lookup(v)` (R333), for a table that passes `TblVerify`. -/
def lookup (p : Params) (m : Memory) (v : B32) : Option B32 :=
  match tblCount p m with
  | some n => lookupIn p m v n
  | none => none

/-- `K2C(k) = fsub(k, F_K)` (R335). -/
def k2c (k : B32) : B32 := fsub k fK

/-- The result of LUT_LOOKUP: `lut_ok`, `lut_k`, `lut_c`, `rc` (R337). -/
def State.setLookup (s : State) (ok : Bool) (k : B32) : State :=
  ({ s with lutOk := ok, lutK := k, lutC := k2c k } : State).setRc (if ok then .ok else .tblInvalid)

/-- LUT_VERIFY (R336); with the table changing during it, R453. -/
def execLutVerify (s : State) : Host.Outcome State Fault Refusal :=
  if s.tblRace then .next s.lutRace
  else match tblVerify s.params s.tbl with
    | some ok => .next (({ s with lutOk := ok } : State).setRc (if ok then .ok else .tblInvalid))
    | none => .fault .tblOutOfRange

/-- LUT_LOOKUP (R337): on an invalid table the sentinel 0 K; with the table changing during it, R453. -/
def execLutLookup (v : B32) (s : State) : Host.Outcome State Fault Refusal :=
  if s.tblRace then .next s.lutRace
  else match tblVerify s.params s.tbl with
    | some true =>
      match lookup s.params s.tbl v with
      | some k => .next (s.setLookup true k)
      | none => .fault .tblOutOfRange
    | some false => .next (s.setLookup false pZero)
    | none => .fault .tblOutOfRange

end Sys2Proof.Machine
end

