-- ==== Sys2Proof/Machine/Mapper.lean ====
section
/-! DEFINITION. Temperature-to-current output mapper (47_output_mapper.md). -/

namespace Sys2Proof.Machine

/-- `Clamp(x)` (R371). -/
def clampCurrent (x : B32) : B32 :=
  if isNaN x then cNaN
  else if flt x f4 then f4
  else if fgt x f20 then f20
  else x

/-- `Calc(t)` (R370) with the calibration `T4`, `T20`: `F_12` when degenerate (R372). -/
def calcCurrent (t4 t20 t : B32) : B32 :=
  if feq t20 t4 then f12
  else clampCurrent (fadd f4 (fmul (fdiv (fsub t t4) (fsub t20 t4)) f16))

/-- `i_out <- x; emit IoutUpdate(x)` (R376, R377): even when `x` equals the old `i_out`. -/
def State.driveCurrent (s : State) (x : B32) : State := ({ s with iOut := x } : State).emit (.ioutUpdate x)

/-- MAP_SET_T4 (R373). -/
def execMapSetT4 (t : B32) (s : State) : Host.Outcome State Fault Refusal :=
  .next (({ s with mapT4 := t } : State).setRc .ok)

/-- MAP_SET_T20 (R374). -/
def execMapSetT20 (t : B32) (s : State) : Host.Outcome State Fault Refusal :=
  .next (({ s with mapT20 := t } : State).setRc .ok)

/-- MAP_CALC (R375). -/
def execMapCalc (t : B32) (s : State) : Host.Outcome State Fault Refusal :=
  .next (({ s with mapRes := calcCurrent s.mapT4 s.mapT20 t } : State).setRc .ok)

/-- MAP_UPDATE (R376). -/
def execMapUpdate (t : B32) (s : State) : Host.Outcome State Fault Refusal :=
  let x := calcCurrent s.mapT4 s.mapT20 t
  .next ((({ s with mapRes := x } : State).driveCurrent x).setRc .ok)

/-- MAP_SET_CURRENT (R377): the calibration is not used, and there is no override mode. -/
def execMapSetCurrent (cur : B32) (s : State) : Host.Outcome State Fault Refusal :=
  .next ((s.driveCurrent (clampCurrent cur)).setRc .ok)

end Sys2Proof.Machine
end

