-- ==== Sys2Proof/Machine/Median.lean ====
section
/-! DEFINITION. Median filter (44_median.md). -/

namespace Sys2Proof.Machine

/-- The window sorted by ascending `key` (R280). -/
def sortByKey (w : List B32) : List B32 := w.insertionSort fun x y => (key x).toNat ≤ (key y).toNat

/-- `Median5(w)` (R280): entry 2 of the five sorted patterns, copied bit for bit. -/
def median5 (w : Vector B32 5) : B32 := (sortByKey w.toList).getD 2 pZero

/-- MED_PUSH (R281). -/
def execMedPush (x : B32) (s : State) : Host.Outcome State Fault Refusal :=
  .next (({ s with
    medBuf := s.medBuf.set s.medWr.val x s.medWr.isLt
    medWr := Fin.ofNat 5 (s.medWr.val + 1)
    medCnt := Fin.ofNat 6 (min (s.medCnt.val + 1) 5) } : State).setRc .ok)

/-- MED_EVAL (R282). -/
def execMedEval (s : State) : Host.Outcome State Fault Refusal :=
  .next (if s.medCnt.val < 5 then s.setRc .medNotFull
    else ({ s with medOut := median5 s.medBuf } : State).setRc .ok)

/-- MED_CLEAR (R283). -/
def execMedClear (s : State) : Host.Outcome State Fault Refusal :=
  .next (({ s with medBuf := Vector.replicate 5 pZero, medWr := 0, medCnt := 0 } : State).setRc .ok)

end Sys2Proof.Machine
end

