-- ==== Sys2Proof/Machine/MovingAverage.lean ====
section
/-! DEFINITION. Moving-average filter (45_moving_average.md). -/

namespace Sys2Proof.Machine

/-- The valid entries `W` of the window (R300): `maf_win[0 .. maf_cnt−1]`, all sixteen when `maf_cnt = 16`. -/
def mafEntries (win : Vector B32 16) (cnt : Fin 17) : List B32 := win.toList.take cnt.val

/-- The exact mean of finite entries: "exact rational arithmetic" (R302). -/
def exactMean (w : List B32) : ℚ := (w.map value).sum / (w.length : ℚ)

/-- `Mean(W)` (R302), for a non-empty `W`: "There is exactly one rounding, at the end". -/
def mean (w : List B32) : B32 :=
  if w.any isNaN then cNaN
  else if w.contains pInf && w.contains nInf then cNaN
  else if w.contains pInf then pInf
  else if w.contains nInf then nInf
  else if exactMean w = 0 then
    if w.all (· == nZero) then nZero else pZero
  else round32 (exactMean w)

/-- The window with `x` pushed (R303): `maf_win`, `maf_wr`, `maf_cnt`, and the mean of the window after the three writes. -/
def State.pushMean (s : State) (x : B32) : State :=
  let win := s.mafWin.set s.mafWr.val x s.mafWr.isLt
  let cnt := Fin.ofNat 17 (min (s.mafCnt.val + 1) 16)
  { s with
    mafWin := win
    mafWr := Fin.ofNat 16 (s.mafWr.val + 1)
    mafCnt := cnt
    mafOut := mean (mafEntries win cnt) }

/-- MAF_PUSH (R303). -/
def execMafPush (x : B32) (s : State) : Host.Outcome State Fault Refusal :=
  .next ((s.pushMean x).setRc .ok)

/-- MAF_CLEAR (R304). -/
def execMafClear (s : State) : Host.Outcome State Fault Refusal :=
  .next (({ s with mafWin := Vector.replicate 16 pZero, mafWr := 0, mafCnt := 0, mafOut := pZero } : State).setRc .ok)

/-- MED_MAF (R305). -/
def execMedMaf (s : State) : Host.Outcome State Fault Refusal :=
  .next (if s.medCnt.val < 5 then s.setRc .medNotFull
    else (({ s with medOut := median5 s.medBuf } : State).pushMean (median5 s.medBuf)).setRc .ok)

end Sys2Proof.Machine
end

