-- ==== Sys2Proof/Machine/Parser.lean ====
section
/-! DEFINITION. Frame parser (42_frame_parser.md). -/

namespace Sys2Proof.Machine

/-- AwaitingHead (R202, R203). -/
def rxAwaitingHead (d : Byte) (s : State) : State :=
  if d = headMarker then
    { s with rxFv := false, rxIdx := 0, rxCrcCalc := crcInitValue, rxState := .gotCmd }
  else s

/-- GotCmd (R202). -/
def rxGotCmd (d : Byte) (s : State) : State :=
  { s with rxCmd := d, rxCrcCalc := crc16Step s.rxCrcCalc d, rxState := .gotLen }

/-- GotLen (R202, R208). -/
def rxGotLen (d : Byte) (s : State) : State :=
  { s with
    rxLen := d
    rxCrcCalc := crc16Step s.rxCrcCalc d
    rxIdx := 0
    rxState := if d = 0 then .gotCrcLow else .collectingPayload }

/-- CollectingPayload (R202): the buffer entry written is `rx_idx`, and `rx_idx + 1` is a `u8` (R7; log entry 15). -/
def rxCollectingPayload (d : Byte) (s : State) : State :=
  { s with
    rxBuf := s.rxBuf.set s.rxIdx.toNat d s.rxIdx.isLt
    rxCrcCalc := crc16Step s.rxCrcCalc d
    rxIdx := s.rxIdx + 1
    rxState := if s.rxIdx + 1 = s.rxLen then .gotCrcLow else .collectingPayload }

/-- GotCrcLow (R202). -/
def rxGotCrcLow (d : Byte) (s : State) : State :=
  { s with rxCrcRx := zext16 d, rxState := .gotCrcHigh }

/-- GotCrcHigh (R202). -/
def rxGotCrcHigh (d : Byte) (s : State) : State :=
  { s with
    rxCrcRx := (zext16 d <<< 8) ||| zext16 (lowByte s.rxCrcRx)
    rxState := .awaitingTail }

/-- AwaitingTail (R202, R204, R205). -/
def rxAwaitingTail (d : Byte) (s : State) : State :=
  if d = tailMarker then
    if s.rxCrcRx = s.rxCrcCalc then
      ({ s with rxState := .awaitingHead, rxEvt := .frameOk, rxFv := true } : State).emit (.frameOk s.rxCmd s.rxLen)
    else
      ({ s with rxState := .awaitingHead, rxEvt := .crcErr } : State).emit (.crcErr s.rxCmd)
  else { s with rxState := .awaitingHead }

/-- The `case S.rx_state of` of R202. -/
def rxCase (d : Byte) (s : State) : State :=
  match s.rxState with
  | .awaitingHead => rxAwaitingHead d s
  | .gotCmd => rxGotCmd d s
  | .gotLen => rxGotLen d s
  | .collectingPayload => rxCollectingPayload d s
  | .gotCrcLow => rxGotCrcLow d s
  | .gotCrcHigh => rxGotCrcHigh d s
  | .awaitingTail => rxAwaitingTail d s

/-- RX_FEED (R202). -/
def execRxFeed (d : Byte) (s : State) : Host.Outcome State Fault Refusal :=
  .next ((rxCase d { s with rxEvt := .none }).setRc .ok)

/-- RX_RESET (R210). -/
def execRxReset (s : State) : Host.Outcome State Fault Refusal :=
  .next (({ s with rxState := .awaitingHead, rxEvt := .none, rxFv := false } : State).setRc .ok)

end Sys2Proof.Machine
end

