-- ==== Sys2Proof/Machine/Dispatch.lean ====
section
/-! DEFINITION. One arm per op of the op map (30_encoding.md R123). -/

namespace Sys2Proof.Machine

def exec (i : Instr) (s : State) : Host.Outcome State Fault Refusal :=
  match i with
  | .nop => Sys2Proof.Machine.execNop s
  | .crcInit => Sys2Proof.Machine.execCrcInit s
  | .crcByte d => Sys2Proof.Machine.execCrcByte d s
  | .rxFeed d => Sys2Proof.Machine.execRxFeed d s
  | .rxReset => Sys2Proof.Machine.execRxReset s
  | .txPlWrite idx d => Sys2Proof.Machine.execTxPlWrite idx d s
  | .txAck cmd status => Sys2Proof.Machine.execTxAck cmd status s
  | .txData cmd n => Sys2Proof.Machine.execTxData cmd n s
  | .txReport cmd temp volt cur => Sys2Proof.Machine.execTxReport cmd temp volt cur s
  | .medPush x => Sys2Proof.Machine.execMedPush x s
  | .medEval => Sys2Proof.Machine.execMedEval s
  | .medClear => Sys2Proof.Machine.execMedClear s
  | .mafPush x => Sys2Proof.Machine.execMafPush x s
  | .mafClear => Sys2Proof.Machine.execMafClear s
  | .medMaf => Sys2Proof.Machine.execMedMaf s
  | .lutVerify => Sys2Proof.Machine.execLutVerify s
  | .lutLookup v => Sys2Proof.Machine.execLutLookup v s
  | .mapSetT4 t => Sys2Proof.Machine.execMapSetT4 t s
  | .mapSetT20 t => Sys2Proof.Machine.execMapSetT20 t s
  | .mapCalc t => Sys2Proof.Machine.execMapCalc t s
  | .mapUpdate t => Sys2Proof.Machine.execMapUpdate t s
  | .mapSetCurrent cur => Sys2Proof.Machine.execMapSetCurrent cur s

end Sys2Proof.Machine
end

