-- ==== Sys2Proof/Machine/Fetch.lean ====
section
/-! DEFINITION. Taking what the controller and the platform do at one step (10_state.md R52; 70_reset_and_hazards.md R440,
R450; log entry 2). -/

namespace Sys2Proof.Machine

/-- An accepted bundle: its op, or `rc <- ILLEGAL_OP` for an unassigned op code (R161). -/
def runBundle (w : Bundle) (s : State) : Host.Outcome State Fault Refusal :=
  match decode w with
  | .ok i => exec i s
  | .error _ => .next s.illegalOp

/-- The table after the provisioning writer's bytes; a byte at an address that does not exist is a fault (log entry 10). -/
def writeTable (cs : List Host.Cell) (s : State) : Host.Outcome State Fault Refusal :=
  match applyWrites s.params s.tbl cs with
  | some m => .next { s with tbl := m }
  | none => .fault .tblOutOfRange

/-- An op from its acceptance to its completion: the event pulse of the op before is over (R452), the writer's bytes reach
the table, and the op knows whether they change it (R453). -/
def runOp (w : Bundle) (cs : List Host.Cell) (s : State) : Host.Outcome State Fault Refusal :=
  match writeTable cs s with
  | .next s' => runBundle w { s'.endPulse with tblRace := tblChanges s.tbl cs }
  | .fault f => .fault f
  | .refused r => .refused r

/-- One input. -/
def runInput (inp : Input) (s : State) : Host.Outcome State Fault Refusal :=
  match inp with
  | .op w cs => runOp w cs s
  | .quiet => .next s.endPulse
  | .reset => .next s.applyReset
  | .tblWrite a b => writeTable [(a, b)] s.endPulse

end Sys2Proof.Machine
end

