-- ==== Sys2Proof/Machine/Step.lean ====
section
/-! DEFINITION. One architectural step: the next thing the controller or the platform does. -/

namespace Sys2Proof.Machine

/-- One step. An op runs from acceptance to completion (20_memory.md R89: "Each op is atomic"); with no input left the block
"idles with `cmd_ready = 1` and keeps all state" (60_exceptions.md R417), only an event pulse ends (R452). -/
def step (s : State) : Host.Outcome State Fault Refusal :=
  match s.inputs with
  | [] => .next s.endPulse
  | inp :: rest => runInput inp { s with inputs := rest }

/-- `s` with the bundle of a table row offered on the command port at the very next step (log entry 1, log entry 2). -/
def State.withFetchWord (s : State) (nbits w : Nat) : State :=
  { s with inputs := .op (BitVec.ofNat 112 (w % 2 ^ nbits)) [] :: s.inputs }

end Sys2Proof.Machine
end

