-- ==== Sys2Proof/Machine/Asm.lean ====
section
/-! DEFINITION. The assembler notation (30_encoding.md R140 to R142), from the text of a line to the ops it stands for (log
entry 20), and the boot order of 70_reset_and_hazards.md R443. -/

namespace Sys2Proof.Machine

/-! ## Literals -/

/-- A decimal digit. -/
def decDigit (c : Char) : Option Nat :=
  if 48 ≤ c.toNat ∧ c.toNat ≤ 57 then some (c.toNat - 48) else none

/-- A hex digit, of either case. -/
def hexDigit (c : Char) : Option Nat :=
  if 48 ≤ c.toNat ∧ c.toNat ≤ 57 then some (c.toNat - 48)
  else if 65 ≤ c.toNat ∧ c.toNat ≤ 70 then some (c.toNat - 55)
  else if 97 ≤ c.toNat ∧ c.toNat ≤ 102 then some (c.toNat - 87)
  else none

/-- The number that digits stand for, after `acc`. -/
def digitsFrom (base : Nat) (digit : Char → Option Nat) : Nat → List Char → Option Nat
  | acc, [] => some acc
  | acc, c :: cs =>
    match digit c with
    | some d => digitsFrom base digit (base * acc + d) cs
    | none => none

/-- A decimal integer of at least one digit. -/
def decNumber (cs : List Char) : Option Nat := if cs.isEmpty then none else digitsFrom 10 decDigit 0 cs

/-- A hex integer of at least one digit, without its `0x`. -/
def hexNumber (cs : List Char) : Option Nat := if cs.isEmpty then none else digitsFrom 16 hexDigit 0 cs

/-- A byte or index operand: "a decimal or `0x` hex integer in 0..255" (R141). -/
def byteLiteral (cs : List Char) : Option Byte :=
  let n := match cs with
    | '0' :: 'x' :: hex => hexNumber hex
    | _ => decNumber cs
  match n with
  | some v => if v ≤ 255 then some (BitVec.ofNat 8 v) else none
  | none => none

/-- What stands before the first `sep`, and what stands after it if there is one. -/
def cutAt (sep : Char) : List Char → List Char × Option (List Char)
  | [] => ([], none)
  | c :: cs =>
    if c = sep then ([], some cs)
    else (c :: (cutAt sep cs).1, (cutAt sep cs).2)

/-- Digits with an optional decimal point and digits after it. -/
def pointNumber (cs : List Char) : Option ℚ :=
  match cutAt '.' cs with
  | (whole, none) => (decNumber whole).map fun n => (n : ℚ)
  | (whole, some frac) =>
    match decNumber whole, decNumber frac with
    | some n, some f => some (mkRat (n * 10 ^ frac.length + f : Nat) (10 ^ frac.length))
    | _, _ => none

/-- A power of ten after `e`, such as the `30` of `1e30f` (95_test_vectors.md V-SRC-5). -/
def tenPower : List Char → Option ℚ
  | '-' :: cs => (decNumber cs).map fun n => mkRat 1 (10 ^ n)
  | cs => (decNumber cs).map fun n => ((10 ^ n : Nat) : ℚ)

/-- A decimal value, without a sign. -/
def magnitudeLiteral (cs : List Char) : Option ℚ :=
  match cutAt 'e' cs with
  | (m, none) => pointNumber m
  | (m, some e) =>
    match pointNumber m, tenPower e with
    | some q, some p => some (q * p)
    | _, _ => none

/-- The value of a decimal literal, without its suffix. -/
def decimalLiteral : List Char → Option ℚ
  | '-' :: cs => (magnitudeLiteral cs).map fun q => -q
  | cs => magnitudeLiteral cs

/-- A binary32 operand (R141): `nan`, `inf`, `-inf`, a raw pattern `0x` with 8 hex digits, or a decimal literal with suffix `f`,
"which stands for the binary32 nearest to the decimal value, ties to even". -/
def wordLiteral (cs : List Char) : Option B32 :=
  if cs = ['n', 'a', 'n'] then some cNaN
  else if cs = ['i', 'n', 'f'] then some pInf
  else if cs = ['-', 'i', 'n', 'f'] then some nInf
  else match cs with
    | '0' :: 'x' :: hex =>
      if hex.length = 8 then (hexNumber hex).map (BitVec.ofNat 32) else none
    | _ =>
      match cs.reverse with
      | 'f' :: rest => (decimalLiteral rest.reverse).map round32
      | _ => none

/-! ## Lines -/

/-- The mnemonics of R140. -/
def mnemonic : Instr → String
  | .nop => "NOP"
  | .crcInit => "CRC_INIT"
  | .crcByte _ => "CRC_BYTE"
  | .rxFeed _ => "RX_FEED"
  | .rxReset => "RX_RESET"
  | .txPlWrite _ _ => "TX_PL_WRITE"
  | .txAck _ _ => "TX_ACK"
  | .txData _ _ => "TX_DATA"
  | .txReport _ _ _ _ => "TX_REPORT"
  | .medPush _ => "MED_PUSH"
  | .medEval => "MED_EVAL"
  | .medClear => "MED_CLEAR"
  | .mafPush _ => "MAF_PUSH"
  | .mafClear => "MAF_CLEAR"
  | .medMaf => "MED_MAF"
  | .lutVerify => "LUT_VERIFY"
  | .lutLookup _ => "LUT_LOOKUP"
  | .mapSetT4 _ => "MAP_SET_T4"
  | .mapSetT20 _ => "MAP_SET_T20"
  | .mapCalc _ => "MAP_CALC"
  | .mapUpdate _ => "MAP_UPDATE"
  | .mapSetCurrent _ => "MAP_SET_CURRENT"

/-- An op without operands. -/
def asmNone (i : Instr) : List (List Char) → Option Instr
  | [] => some i
  | _ :: _ => none

/-- An op with one byte operand. -/
def asmByte (mk : Byte → Instr) : List (List Char) → Option Instr
  | [x] => (byteLiteral x).map mk
  | _ => none

/-- An op with two byte operands. -/
def asmTwoBytes (mk : Byte → Byte → Instr) : List (List Char) → Option Instr
  | [x, y] =>
    match byteLiteral x, byteLiteral y with
    | some first, some second => some (mk first second)
    | _, _ => none
  | _ => none

/-- An op with one binary32 operand. -/
def asmWord (mk : B32 → Instr) : List (List Char) → Option Instr
  | [x] => (wordLiteral x).map mk
  | _ => none

/-- TX_REPORT's operands. -/
def asmReport : List (List Char) → Option Instr
  | [cmd, t, v, i] =>
    match byteLiteral cmd, wordLiteral t, wordLiteral v, wordLiteral i with
    | some cmd, some t, some v, some i => some (.txReport cmd t v i)
    | _, _, _, _ => none
  | _ => none

/-- A row of the table of R140: `none` where the name or the operands are not the table's. -/
def assembleOp (name : String) (operands : List (List Char)) : Option Instr :=
  if name = "NOP" then asmNone .nop operands
  else if name = "CRC_INIT" then asmNone .crcInit operands
  else if name = "CRC_BYTE" then asmByte .crcByte operands
  else if name = "RX_FEED" then asmByte .rxFeed operands
  else if name = "RX_RESET" then asmNone .rxReset operands
  else if name = "TX_PL_WRITE" then asmTwoBytes .txPlWrite operands
  else if name = "TX_ACK" then asmTwoBytes .txAck operands
  else if name = "TX_DATA" then asmTwoBytes .txData operands
  else if name = "TX_REPORT" then asmReport operands
  else if name = "MED_PUSH" then asmWord .medPush operands
  else if name = "MED_EVAL" then asmNone .medEval operands
  else if name = "MED_CLEAR" then asmNone .medClear operands
  else if name = "MAF_PUSH" then asmWord .mafPush operands
  else if name = "MAF_CLEAR" then asmNone .mafClear operands
  else if name = "MED_MAF" then asmNone .medMaf operands
  else if name = "LUT_VERIFY" then asmNone .lutVerify operands
  else if name = "LUT_LOOKUP" then asmWord .lutLookup operands
  else if name = "MAP_SET_T4" then asmWord .mapSetT4 operands
  else if name = "MAP_SET_T20" then asmWord .mapSetT20 operands
  else if name = "MAP_CALC" then asmWord .mapCalc operands
  else if name = "MAP_UPDATE" then asmWord .mapUpdate operands
  else if name = "MAP_SET_CURRENT" then asmWord .mapSetCurrent operands
  else none

/-- `TX_PL_WRITE 0, d0 ... TX_PL_WRITE k, dk` (R142), from index `k` on. -/
def stagePayload (k : Nat) : List Byte → List Instr
  | [] => []
  | d :: ds => .txPlWrite (BitVec.ofNat 8 k) d :: stagePayload (k + 1) ds

/-- The expansion of a pseudo-op (R142). -/
def Pseudo.expand : Pseudo → List Instr
  | .crcBytes ds => ds.map .crcByte
  | .crcOf ds => .crcInit :: ds.map .crcByte
  | .rxBytes ds => ds.map .rxFeed
  | .txPayload ds => stagePayload 0 ds
  | .filterCycle s0 s1 s2 s3 s4 =>
    [.medClear, .medPush s0, .medPush s1, .medPush s2, .medPush s3, .medPush s4, .medMaf]
  | .setCal t4 t20 => [.mapSetT4 t4, .mapSetT20 t20]

/-- Every one of the operands, read by `lit`. -/
def allLiterals {α : Type} (lit : List Char → Option α) : List (List Char) → Option (List α)
  | [] => some []
  | x :: xs =>
    match lit x, allLiterals lit xs with
    | some v, some vs => some (v :: vs)
    | _, _ => none

/-- A row of the table of R142. -/
def assemblePseudo (name : String) (operands : List (List Char)) : Option Pseudo :=
  if name = "CRC_BYTES" then (allLiterals byteLiteral operands).map .crcBytes
  else if name = "CRC_OF" then (allLiterals byteLiteral operands).map .crcOf
  else if name = "RX_BYTES" then (allLiterals byteLiteral operands).map .rxBytes
  else if name = "TX_PAYLOAD" then (allLiterals byteLiteral operands).map .txPayload
  else if name = "FILTER_CYCLE" then
    match allLiterals wordLiteral operands with
    | some [s0, s1, s2, s3, s4] => some (.filterCycle s0 s1 s2 s3 s4)
    | _ => none
  else if name = "SET_CAL" then
    match allLiterals wordLiteral operands with
    | some [t4, t20] => some (.setCal t4 t20)
    | _ => none
  else none

/-- Blanks at the front taken away. -/
def dropBlanks (cs : List Char) : List Char := cs.dropWhile (· == ' ')

/-- Blanks at both ends taken away. -/
def trimBlanks (cs : List Char) : List Char := (dropBlanks (dropBlanks cs).reverse).reverse

/-- The operands of a line, "separated by commas" (R140). -/
def splitCommas : List Char → List (List Char)
  | [] => [[]]
  | c :: cs =>
    match splitCommas cs with
    | [] => [[c]]
    | word :: words => if c = ',' then [] :: word :: words else (c :: word) :: words

/-- The ops that a line `MNEMONIC operands` stands for (R140, R142), `none` if it is no line of the notation. -/
def assembleLine (line : List Char) : Option (List Instr) :=
  let text := trimBlanks line
  let name := String.ofList (text.takeWhile (· != ' '))
  let rest := trimBlanks (text.dropWhile (· != ' '))
  let operands := if rest.isEmpty then [] else (splitCommas rest).map trimBlanks
  match assembleOp name operands with
  | some i => some [i]
  | none =>
    match assemblePseudo name operands with
    | some p => if p.wellFormed then some (Pseudo.expand p) else none
    | none => none

/-- The ops a controller issues after reset to reproduce the source's start-up (R443, steps 2 to 4). -/
def bootOps (t4 t20 : B32) (safeCurrent : Option B32) : List Instr :=
  Pseudo.expand (.setCal t4 t20) ++ [.lutVerify] ++
    (match safeCurrent with | some x => [.mapSetCurrent x] | none => [])

end Sys2Proof.Machine
end

