-- ==== Sys2Proof/Machine/Ports.lean ====
section
/-! DEFINITION. The ports that show the state (10_state.md R53, R54, R56, R57, R63). They are meaningful while `cmd_ready = 1`,
which holds between two steps; what they show otherwise is in Machine/Clock.lean (70_reset_and_hazards.md R451). -/

namespace Sys2Proof.Machine

/-- The status outputs (R53): one port for each scalar state field, of its name and width. -/
structure StatusPorts where
  rc : BitVec 8
  crcAcc : BitVec 16
  rxState : BitVec 3
  rxCmd : BitVec 8
  rxLen : BitVec 8
  rxIdx : BitVec 8
  rxCrcRx : BitVec 16
  rxCrcCalc : BitVec 16
  rxEvt : BitVec 2
  rxFv : BitVec 1
  txLen : BitVec 9
  medWr : BitVec 3
  medCnt : BitVec 3
  medOut : BitVec 32
  mafWr : BitVec 4
  mafCnt : BitVec 5
  mafOut : BitVec 32
  lutOk : BitVec 1
  lutK : BitVec 32
  lutC : BitVec 32
  mapT4 : BitVec 32
  mapT20 : BitVec 32
  mapRes : BitVec 32
  iOut : BitVec 32
deriving DecidableEq, Repr

/-- What the status ports show of a state (R53). `i_out` is also the setpoint of the current output (R56). -/
def statusPorts (s : State) : StatusPorts where
  rc := s.rc.code
  crcAcc := s.crcAcc
  rxState := s.rxState.code
  rxCmd := s.rxCmd
  rxLen := s.rxLen
  rxIdx := s.rxIdx
  rxCrcRx := s.rxCrcRx
  rxCrcCalc := s.rxCrcCalc
  rxEvt := s.rxEvt.code
  rxFv := BitVec.ofBool s.rxFv
  txLen := s.txLen
  medWr := BitVec.ofNat 3 s.medWr.val
  medCnt := BitVec.ofNat 3 s.medCnt.val
  medOut := s.medOut
  mafWr := BitVec.ofNat 4 s.mafWr.val
  mafCnt := BitVec.ofNat 5 s.mafCnt.val
  mafOut := s.mafOut
  lutOk := BitVec.ofBool s.lutOk
  lutK := s.lutK
  lutC := s.lutC
  mapT4 := s.mapT4
  mapT20 := s.mapT20
  mapRes := s.mapRes
  iOut := s.iOut

/-- `rx_buf_rdata` (R54). -/
def rxBufRdata (s : State) (raddr : BitVec 8) : Byte := s.rxBuf[raddr.toNat]'raddr.isLt

/-- `tx_pl_rdata` (R54). -/
def txPlRdata (s : State) (raddr : BitVec 8) : Byte := s.txPl[raddr.toNat]'raddr.isLt

/-- `tx_buf_rdata` (R54): 0x00 above entry 260. The transport reads the frame here (R57). -/
def txBufRdata (s : State) (raddr : BitVec 9) : Byte :=
  if h : raddr.toNat < 261 then s.txBuf[raddr.toNat]'h else 0x00#8

/-- `med_rdata` (R54): 0x00000000 above entry 4. -/
def medRdata (s : State) (raddr : BitVec 3) : B32 :=
  if h : raddr.toNat < 5 then s.medBuf[raddr.toNat]'h else 0x00000000#32

/-- `maf_rdata` (R54). -/
def mafRdata (s : State) (raddr : BitVec 4) : B32 := s.mafWin[raddr.toNat]'raddr.isLt

/-- The event outputs (R63). -/
structure EventPorts where
  evFrameOk : Bool
  evCrcErr : Bool
  evTxReady : Bool
  evIoutUpd : Bool
deriving DecidableEq, Repr

/-- The event outputs in the clock in which an op's results are first visible (R63, R452). -/
def eventPorts (s : State) : EventPorts where
  evFrameOk := s.event.isFrameOk
  evCrcErr := s.event.isCrcErr
  evTxReady := s.event.isTxReady
  evIoutUpd := s.event.isIoutUpdate

/-- The bytes the transport collaborator reads after `ev_tx_ready`: `tx_buf[0..tx_len-1]` (R57). -/
def transportFrame (s : State) : List Byte := s.txBuf.toList.take s.txLen.toNat

/-- The validated frame's payload, `rx_buf[0..rx_len-1]`, meaningful while `rx_fv = 1` (R38, R206). -/
def rxPayload (s : State) : List Byte := s.rxBuf.toList.take s.rxLen.toNat

end Sys2Proof.Machine
end

