-- ==== Sys2Proof/Machine/Clock.lean ====
section
/-! DEFINITION. The block at clock grain: the handshake, the latency of an op, reset at any clock, the ports while an op is in
progress and the event pulses (70_reset_and_hazards.md R440, R441, R450 to R453; 10_state.md R51, R52, R55). An op takes effect by
the architectural `step` at its completion; which edge that is, is log entry 6. -/

namespace Sys2Proof.Machine

/-- The inputs at one rising edge of `clk` (R51, R52), and the bytes the provisioning writer writes at it (R90 (a)). -/
structure Pins where
  rst : Bool
  cmdValid : Bool
  cmdWord : Bundle
  tblWr : List Host.Cell
deriving DecidableEq, Repr

/-- The op in progress (R450): its bundle, the edges still to come up to and with its completion, and the bytes written to the
table since its acceptance (R453). -/
structure InFlight where
  word : Bundle
  left : Nat
  written : List Host.Cell
deriving DecidableEq, Repr

/-- The block between two rising edges. -/
structure Clocked where
  /-- The state after the last completed op, or the reset state. -/
  arch : State
  /-- The op in progress. -/
  flight : Option InFlight
  /-- `rst` has been asserted since power-up (R441). -/
  live : Bool
  /-- Counts the edges: the model's own, it picks the free values of R451. -/
  clk : Nat
  /-- `LAT(op)` less one, by op code: an open parameter (R6, R450) that no edge writes. Only the clock grain reads it. -/
  latLessOne : Vector Nat 256
deriving DecidableEq, Repr

/-- After power-up, before the first reset: "every field and every output has an unspecified value" (R441), so `s` is any
state. -/
def Clocked.powerUp (s : State) : Clocked where
  arch := s
  flight := none
  live := false
  clk := 0
  latLessOne := Vector.ofFn fun op => Config.latencyLessOne (BitVec.ofFin op)

/-- `LAT(op)` in clocks, at least 1 (R6, R450). -/
def latency (c : Clocked) (op : Byte) : Nat := c.latLessOne[op.toNat]'op.isLt + 1

/-- The ports are meaningful (R451): `rst = 0`, no op in progress, and `rst` asserted once since power-up (R441). -/
def portsValid (p : Pins) (c : Clocked) : Bool := !p.rst && c.live && c.flight.isNone

/-- `cmd_ready` in the clock before the edge at which the pins are sampled (R440, R450): 0 while `rst = 1` and while an op is
in progress; unspecified before the first reset (R441). -/
def cmdReady (p : Pins) (c : Clocked) : Bool :=
  if c.live then portsValid p c else !p.rst && Config.freeBit c.clk

/-- An op is accepted at an edge "at which `rst = 0`, `cmd_valid = 1` and `cmd_ready = 1`" (R450);
none is before the first reset (R441). -/
def accepts (p : Pins) (c : Clocked) : Bool := portsValid p c && p.cmdValid

/-- The op completes: one architectural step. -/
def completeOp (c : Clocked) (w : Bundle) (written : List Host.Cell) : Host.Outcome Clocked Fault Refusal :=
  match step { c.arch with inputs := .op w written :: c.arch.inputs } with
  | .next s => .next { c with arch := s, flight := none, clk := c.clk + 1 }
  | .fault f => .fault f
  | .refused r => .refused r

/-- A clock in which no op completes and none is in progress: the event pulse ends, the writer's bytes reach the table. -/
def idleClock (c : Clocked) (written : List Host.Cell) : Host.Outcome Clocked Fault Refusal :=
  match writeTable written c.arch.endPulse with
  | .next s => .next { c with arch := s, clk := c.clk + 1 }
  | .fault f => .fault f
  | .refused r => .refused r

/-- An edge with `rst = 1` (R440): the op in progress "is abandoned with no effect beyond the reset values and no event"; the
table keeps its bytes (R442), those written since the acceptance among them. -/
def resetClock (c : Clocked) (written : List Host.Cell) : Host.Outcome Clocked Fault Refusal :=
  let all := (match c.flight with | some f => f.written | none => []) ++ written
  match writeTable all c.arch with
  | .next s => .next { c with arch := s.applyReset, flight := none, live := true, clk := c.clk + 1 }
  | .fault f => .fault f
  | .refused r => .refused r

/-- The edge at which a bundle is accepted (R450): an op of latency 1 completes at once, a longer one is in progress. -/
def acceptClock (p : Pins) (c : Clocked) : Host.Outcome Clocked Fault Refusal :=
  if latency c (opField p.cmdWord) = 1 then completeOp c p.cmdWord p.tblWr
  else .next
    { c with
      arch := c.arch.endPulse
      flight := some ⟨p.cmdWord, latency c (opField p.cmdWord) - 1, p.tblWr⟩
      clk := c.clk + 1 }

/-- An edge with an op in progress: a `cmd_valid = 1` is "held off, not lost" (R450). -/
def busyClock (p : Pins) (f : InFlight) (c : Clocked) : Host.Outcome Clocked Fault Refusal :=
  if f.left ≤ 1 then completeOp c f.word (f.written ++ p.tblWr)
  else .next { c with flight := some ⟨f.word, f.left - 1, f.written ++ p.tblWr⟩, clk := c.clk + 1 }

/-- One rising edge of `clk`. Before the first reset "no op may be offered" (R441): it is refused (log entry 12). -/
def tick (p : Pins) (c : Clocked) : Host.Outcome Clocked Fault Refusal :=
  if p.rst then resetClock c p.tblWr
  else if !c.live then (if p.cmdValid then .refused .opBeforeReset else idleClock c p.tblWr)
  else match c.flight with
    | some f => busyClock p f c
    | none => if p.cmdValid then acceptClock p c else idleClock c p.tblWr

/-- One edge for each list entry, stopping at the first fault or refusal. -/
def runTicks : List Pins → Clocked → Host.Outcome Clocked Fault Refusal
  | [], c => .next c
  | p :: ps, c =>
    match tick p c with
    | .next c' => runTicks ps c'
    | .fault f => .fault f
    | .refused r => .refused r

/-- The status ports in the clock that ends with the edge `p`: the state's while `cmd_ready = 1`, any value otherwise (R451). -/
def visibleStatus (p : Pins) (c : Clocked) : StatusPorts :=
  if portsValid p c then statusPorts c.arch
  else
    let any (k : Nat) : B32 := Config.anyPortWord c.clk k
    { rc := (any 0).setWidth 8, crcAcc := (any 1).setWidth 16, rxState := (any 2).setWidth 3, rxCmd := (any 3).setWidth 8
      rxLen := (any 4).setWidth 8, rxIdx := (any 5).setWidth 8, rxCrcRx := (any 6).setWidth 16
      rxCrcCalc := (any 7).setWidth 16, rxEvt := (any 8).setWidth 2, rxFv := (any 9).setWidth 1
      txLen := (any 10).setWidth 9, medWr := (any 11).setWidth 3, medCnt := (any 12).setWidth 3, medOut := any 13
      mafWr := (any 14).setWidth 4, mafCnt := (any 15).setWidth 5, mafOut := any 16, lutOk := (any 17).setWidth 1
      lutK := any 18, lutC := any 19, mapT4 := any 20, mapT20 := any 21, mapRes := any 22, iOut := any 23 }

/-- A byte read port in that clock (R54, R451): `shown` is what the port gives of the state. -/
def visibleByte (p : Pins) (c : Clocked) (port raddr : Nat) (shown : Byte) : Byte :=
  if portsValid p c then shown else Config.anyPortByte c.clk (port + 4 * raddr)

/-- A 32-bit read port in that clock (R54, R451). -/
def visibleWord (p : Pins) (c : Clocked) (port raddr : Nat) (shown : B32) : B32 :=
  if portsValid p c then shown else Config.anyPortWord c.clk (25 + port + 4 * raddr)

/-- The table memory as it stands in a clock: the bytes written since the acceptance of the op in progress are in it (R453). -/
def tableNow (c : Clocked) : Memory :=
  match c.flight with
  | some f => (applyWrites c.arch.params c.arch.tbl f.written).getD c.arch.tbl
  | none => c.arch.tbl

/-- `tbl_addr` in that clock (R55): which read of the op in progress stands there, if one does, "is implementation-defined", so
it is a free value (log entry 22). -/
def visibleTblAddr (c : Clocked) : BitVec c.arch.params.tblAw := tblAddr c.arch.params (Config.anyTblAddr c.clk)

/-- `tbl_rdata` in that clock (R55): the platform's answer, a pure function of the address and the bytes that stand in the
table (20_memory.md R88). -/
def visibleTblRdata (c : Clocked) : Byte := tblRdata c.arch.params (tableNow c) (visibleTblAddr c)

/-- `rx_buf_rdata` at clock grain. -/
def visibleRxBuf (p : Pins) (c : Clocked) (raddr : BitVec 8) : Byte :=
  visibleByte p c 0 raddr.toNat (rxBufRdata c.arch raddr)

/-- `tx_pl_rdata` at clock grain. -/
def visibleTxPl (p : Pins) (c : Clocked) (raddr : BitVec 8) : Byte :=
  visibleByte p c 1 raddr.toNat (txPlRdata c.arch raddr)

/-- `tx_buf_rdata` at clock grain. -/
def visibleTxBuf (p : Pins) (c : Clocked) (raddr : BitVec 9) : Byte :=
  visibleByte p c 2 raddr.toNat (txBufRdata c.arch raddr)

/-- `med_rdata` at clock grain. -/
def visibleMed (p : Pins) (c : Clocked) (raddr : BitVec 3) : B32 :=
  visibleWord p c 0 raddr.toNat (medRdata c.arch raddr)

/-- `maf_rdata` at clock grain. -/
def visibleMaf (p : Pins) (c : Clocked) (raddr : BitVec 4) : B32 :=
  visibleWord p c 1 raddr.toNat (mafRdata c.arch raddr)

/-- The event outputs in that clock (R440, R452): 0 while `rst = 1` and while an op is in progress; unspecified before the
first reset (R441). -/
def visibleEvents (p : Pins) (c : Clocked) : EventPorts :=
  if portsValid p c then eventPorts c.arch
  else if p.rst || c.live then ⟨false, false, false, false⟩
  else
    let any := Config.anyPortWord c.clk 24
    ⟨any.getLsbD 0, any.getLsbD 1, any.getLsbD 2, any.getLsbD 3⟩

end Sys2Proof.Machine
end

