-- ==== Sys2Proof/Safety.lean ====
section
/-! DEFINITION. The terms in which claims speak: what holds of every state the block can reach, what belongs to which unit, how
a frame and a table look byte by byte, and the catalogue's CRC. No meaning uses them. -/

namespace Sys2Proof.Machine

/-- Ops one after another, stopping at the first fault or refusal. -/
def execList : List Instr → State → Host.Outcome State Fault Refusal
  | [], s => .next s
  | i :: rest, s =>
    match exec i s with
    | .next s' => execList rest s'
    | .fault f => .fault f
    | .refused r => .refused r

/-- The legal values of `i_out` (R50 (f), R379 (a)). -/
abbrev currentLegal (x : B32) : Prop := x = cNaN ∨ (fge x f4 = true ∧ fle x f20 = true)

/-- The derived invariants of the state: R50 (a) to (f); and, of the memory beside it, the canonical form and addresses that
exist (R80). -/
structure StateInv (s : State) : Prop where
  medFill : s.medCnt.val < 5 → s.medWr.val = s.medCnt.val
  mafFill : s.mafCnt.val < 16 → s.mafWr.val = s.mafCnt.val
  collecting : s.rxState = .collectingPayload → s.rxIdx < s.rxLen
  frameValid : s.rxFv = true → s.rxState = .awaitingHead
  txLength : s.txLen = 0 ∨ (6 ≤ s.txLen.toNat ∧ s.txLen.toNat ≤ 261)
  current : currentLegal s.iOut
  tblCanonical : s.tbl.wf = true
  tblInside : ∀ c ∈ s.tbl, c.1 < s.params.tblBytes

/-- The CRC16 of `[rx_cmd, rx_len]` and the first `k` bytes of `rx_buf` (R201). -/
def rxCrcOf (s : State) (k : Nat) : Half := crc16 ([s.rxCmd, s.rxLen] ++ s.rxBuf.toList.take k)

/-- What `rx_crc_calc` holds in each parser state (R201), and what `rx_fv = 1` says of the frame held (R38, R206). -/
structure ParserInv (s : State) : Prop where
  atCmd : s.rxState = .gotCmd → s.rxCrcCalc = crc16 [] ∧ s.rxIdx = 0
  atLen : s.rxState = .gotLen → s.rxCrcCalc = crc16 [s.rxCmd] ∧ s.rxIdx = 0
  atPayload : s.rxState = .collectingPayload → s.rxIdx < s.rxLen ∧ s.rxCrcCalc = rxCrcOf s s.rxIdx.toNat
  atTrailer : s.rxState = .gotCrcLow ∨ s.rxState = .gotCrcHigh ∨ s.rxState = .awaitingTail →
    s.rxIdx = s.rxLen ∧ s.rxCrcCalc = rxCrcOf s s.rxLen.toNat
  valid : s.rxFv = true →
    s.rxState = .awaitingHead ∧ s.rxCrcRx = s.rxCrcCalc ∧ s.rxCrcCalc = rxCrcOf s s.rxLen.toNat

/-- The unit an op belongs to (R122, R123). -/
def unitOf : Instr → BlockUnit
  | .nop => .control
  | .crcInit | .crcByte _ => .crc
  | .rxFeed _ | .rxReset => .rx
  | .txPlWrite _ _ | .txAck _ _ | .txData _ _ | .txReport _ _ _ _ => .tx
  | .medPush _ | .medEval | .medClear => .med
  | .mafPush _ | .mafClear | .medMaf => .maf
  | .lutVerify | .lutLookup _ => .lut
  | .mapSetT4 _ | .mapSetT20 _ | .mapCalc _ | .mapUpdate _ | .mapSetCurrent _ => .map

/-- Two states agree on a unit's state (R32 to R49, R457). The control unit has none but `rc`. -/
def sameUnit (u : BlockUnit) (s t : State) : Prop :=
  match u with
  | .control => True
  | .crc => s.crcAcc = t.crcAcc
  | .rx => s.rxState = t.rxState ∧ s.rxCmd = t.rxCmd ∧ s.rxLen = t.rxLen ∧ s.rxIdx = t.rxIdx ∧ s.rxCrcRx = t.rxCrcRx ∧
      s.rxCrcCalc = t.rxCrcCalc ∧ s.rxBuf = t.rxBuf ∧ s.rxEvt = t.rxEvt ∧ s.rxFv = t.rxFv
  | .tx => s.txPl = t.txPl ∧ s.txBuf = t.txBuf ∧ s.txLen = t.txLen
  | .med => s.medBuf = t.medBuf ∧ s.medWr = t.medWr ∧ s.medCnt = t.medCnt ∧ s.medOut = t.medOut
  | .maf => s.mafWin = t.mafWin ∧ s.mafWr = t.mafWr ∧ s.mafCnt = t.mafCnt ∧ s.mafOut = t.mafOut
  | .lut => s.lutOk = t.lutOk ∧ s.lutK = t.lutK ∧ s.lutC = t.lutC
  | .map => s.mapT4 = t.mapT4 ∧ s.mapT20 = t.mapT20 ∧ s.mapRes = t.mapRes ∧ s.iOut = t.iOut

/-- Two states agree on what stands outside the units: the table, the parameters, and the model's own record of a changing
table and of free values used. -/
def samePlatform (s t : State) : Prop :=
  s.tbl = t.tbl ∧ s.params = t.params ∧ s.tblRace = t.tblRace ∧ s.freeIdx = t.freeIdx

/-- The byte at offset `j` of the frame for `cmd` and payload `p`, by the table of R130, the CRC by R131. -/
def frameByte (cmd : Byte) (p : List Byte) (j : Nat) : Byte :=
  let crc := crc16 ([cmd, BitVec.ofNat 8 p.length] ++ p)
  if j = 0 then 0xAA#8
  else if j = 1 then cmd
  else if j = 2 then BitVec.ofNat 8 p.length
  else if j < 3 + p.length then p.getD (j - 3) 0
  else if j = 3 + p.length then crc.extractLsb' 0 8
  else if j = 4 + p.length then crc.extractLsb' 8 8
  else 0x55#8

/-- `t` is `s` after `Emit(cmd, p); rc <- OK` (R240): the frame in `tx_buf[0..|p|+5]`, higher entries kept, `tx_len`, the event,
`rc`, and nothing else. -/
structure Emitted (s t : State) (cmd : Byte) (p : List Byte) : Prop where
  length : t.txLen.toNat = p.length + 6
  bytes : ∀ (j : Nat) (h : j < 261), t.txBuf[j] = if j < p.length + 6 then frameByte cmd p j else s.txBuf[j]
  event : t.event = .txReady (BitVec.ofNat 9 (p.length + 6))
  rc : t.rc = .ok
  rest : { t with txBuf := s.txBuf, txLen := s.txLen, event := s.event, rc := s.rc } = s

/-- Four bytes of the table as a number, low byte first (R82). -/
def tblWord (m : Memory) (a : Nat) : Nat :=
  (m.get a).toNat + 2 ^ 8 * (m.get (a + 1)).toNat + 2 ^ 16 * (m.get (a + 2)).toNat + 2 ^ 24 * (m.get (a + 3)).toNat

/-- The point count in the header (R83): two bytes at address 4, low byte first. -/
def headerCount (m : Memory) : Nat := (m.get 4).toNat + 256 * (m.get 5).toNat

/-- The header passes its check (R330). -/
def headerValid (p : Params) (m : Memory) : Prop :=
  tblWord m 0 = p.tableMagic.toNat ∧ 1 ≤ headerCount m ∧ headerCount m ≤ p.tableMaxPoints.toNat

/-- The voltage pattern of point `i` (R83, R331). -/
def voltAt (m : Memory) (i : Nat) : B32 := BitVec.ofNat 32 (tblWord m (8 + 8 * i))

/-- The temperature pattern of point `i` (R83, R331). -/
def tempAt (m : Memory) (i : Nat) : B32 := BitVec.ofNat 32 (tblWord m (12 + 8 * i))

/-- The voltages of the first `n` points strictly decrease, none a NaN (R332). -/
def voltagesDecrease (m : Memory) (n : Nat) : Prop :=
  (∀ i, i < n → isNaN (voltAt m i) = false) ∧ ∀ i, i + 1 < n → flt (voltAt m (i + 1)) (voltAt m i) = true

/-- `s` after a lookup with result `k`, `lut_c = K2C(k)` (R335, R337). -/
def lookedUp (s : State) (k : B32) : State :=
  { s with lutOk := true, lutK := k, lutC := fsub k 0x43889333#32, rc := .ok }

/-- The search loop of R333 from the window `lo`, `hi` ends at the window `lo'`, `hi'`: "while hi - lo > 1" the midpoint
`(lo + hi) >> 1` becomes `lo` where its voltage is above the query, else `hi`. -/
inductive SearchEndsAt (m : Memory) (v : B32) : Nat → Nat → Nat → Nat → Prop where
  | done {lo hi : Nat} (h : hi ≤ lo + 1) : SearchEndsAt m v lo hi lo hi
  | raiseLo {lo hi lo' hi' : Nat} (h : lo + 1 < hi) (hv : fgt (voltAt m ((lo + hi) / 2)) v = true)
      (rest : SearchEndsAt m v ((lo + hi) / 2) hi lo' hi') : SearchEndsAt m v lo hi lo' hi'
  | lowerHi {lo hi lo' hi' : Nat} (h : lo + 1 < hi) (hv : fgt (voltAt m ((lo + hi) / 2)) v = false)
      (rest : SearchEndsAt m v lo ((lo + hi) / 2) lo' hi') : SearchEndsAt m v lo hi lo' hi'

/-- In every clock in which `rst = 0` the block is ready, and its status ports, event outputs and array read ports show the
state `t` (R451, R452, R53, R54, R63). -/
def portsShow (c : Clocked) (t : State) : Prop :=
  ∀ q : Pins, q.rst = false →
    cmdReady q c = true ∧ visibleStatus q c = statusPorts t ∧ visibleEvents q c = eventPorts t ∧
    (∀ a, visibleRxBuf q c a = rxBufRdata t a) ∧ (∀ a, visibleTxPl q c a = txPlRdata t a) ∧
    (∀ a, visibleTxBuf q c a = txBufRdata t a) ∧ (∀ a, visibleMed q c a = medRdata t a) ∧
    (∀ a, visibleMaf q c a = mafRdata t a)

/-- One shift of the catalogue's CRC in normal form, polynomial 0x8005, most significant bit first (R181). -/
def crcNormalShift (c : Half) : Half := if c.msb then (c <<< 1) ^^^ 0x8005#16 else c <<< 1

/-- One byte of the catalogue's CRC: the input byte reflected (R181). -/
def crcNormalStep (c : Half) (d : Byte) : Half := crcNormalShift^[8] (c ^^^ (d.reverse.setWidth 16 <<< 8))

/-- CRC-16/MODBUS by its catalogue entry: "width 16, ... 0x8005 in normal form, reflected input and output, init 0xFFFF,
xorout 0" (R181). -/
def crcModbus (bytes : List Byte) : Half := (bytes.foldl crcNormalStep 0xFFFF#16).reverse

end Sys2Proof.Machine
end

