-- ==== Sys2Proof/Certificates/Slice0/Obligations.lean ====
section
/-! DEFINITION. The statements for the provers. Rules are those of spec/; "log entry n" is notes/assumptions/n.md. -/

open Sys2Proof Sys2Proof.Machine

/-! ## Encoding -/

/-- Decode and encode agree on every op with every operand (R121, R123, R124, R140). -/
def Obligations.DecodeOfEncodeIsTheOp : Prop :=
  ∀ i : Instr, decode (encode i) = .ok i

/-- A bundle the assembler can have written has one reading: encoding the op it decodes to gives the bundle back (R125, R140). -/
def Obligations.EncodeOfDecodeIsTheBundle : Prop :=
  ∀ w : Bundle, w.wellFormed = true → ∃ i, decode w = .ok i ∧ encode i = w

/-- R125: fields an op does not read, and bits 31:8 of `a` for ops that read only `a[7:0]`, do not change the result. -/
def Obligations.UnreadFieldsGiveTheSameResult : Prop :=
  ∀ w w' : Bundle, opField w = opField w' →
    (∀ f, fieldsRead (opField w) = some f →
      (f.imm = true → immField w = immField w') ∧
      (aField w).toNat % 2 ^ f.aBits = (aField w').toNat % 2 ^ f.aBits ∧
      (f.bc = true → bField w = bField w' ∧ cField w = cField w')) →
    decode w = decode w' ∧ ∀ s, runBundle w s = runBundle w' s

/-- R122: the unit of an op is `op[7:4]`, and unit codes 8..15 are unassigned. -/
def Obligations.UnitIsTheHighNibbleOfTheOpCode : Prop :=
  (∀ w i, decode w = .ok i → unitOfOp (opField w) = some (unitOf i)) ∧
  (∀ w, 8 ≤ ((opField w).extractLsb' 4 4).toNat → ∃ e, decode w = .error e)

/-- R126, R161: of the 256 op codes 22 are ops; a bundle with any other writes `rc <- ILLEGAL_OP` and nothing else. -/
def Obligations.UnassignedOpCodesWriteOnlyIllegalOp : Prop :=
  ((List.range 256).filter fun n =>
    match decode (packBundle (BitVec.ofNat 8 n) 0 0 0 0) with
    | .ok _ => true
    | .error _ => false) =
    [0x00, 0x10, 0x11, 0x20, 0x21, 0x30, 0x31, 0x32, 0x33, 0x40, 0x41, 0x42, 0x50, 0x51, 0x52, 0x60, 0x61,
      0x70, 0x71, 0x72, 0x73, 0x74] ∧
  ∀ (w : Bundle) (s : State),
    (opField w).toNat ∉ [0x00, 0x10, 0x11, 0x20, 0x21, 0x30, 0x31, 0x32, 0x33, 0x40, 0x41, 0x42, 0x50, 0x51, 0x52, 0x60,
      0x61, 0x70, 0x71, 0x72, 0x73, 0x74] →
    runBundle w s = .next { s with rc := .illegalOp }

/-- Bundles written out from the examples of the spec decode to the ops they stand for. -/
def Obligations.SampleBundlesDecode : Prop :=
  decode 0x414000003FC0000041D6CCCD2033#112 = .ok (.txReport 0x20 0x41D6CCCD 0x3FC00000 0x41400000) ∧
  decode 0x0000000000000000000000020330#112 = .ok (.txPlWrite 0x02 0x03) ∧
  decode 0x00000000000000000000000020AA20#112 = .ok (.rxFeed 0xAA) ∧
  decode 0x000000000000000043FA00000061#112 = .ok (.lutLookup 0x43FA0000) ∧
  decode 0x0000000000000000000000000052#112 = .ok .medMaf

/-! ## The step -/

/-- A step at which the controller offers a bundle that decodes to an op is that op: the input is taken, the event pulse of
the op before is over (R452; log entry 7), and the op knows that the table does not change during it (R453). A bundle with an
unassigned op code writes `rc <- ILLEGAL_OP`, takes the input and ends the pulse, and nothing else (R161). -/
def Obligations.StepRunsTheDecodedOp : Prop :=
  ∀ (s : State) (w : Bundle) (rest : List Input), s.inputs = .op w [] :: rest →
    (∀ i, decode w = .ok i → step s = exec i { s with inputs := rest, event := .none, tblRace := false }) ∧
    (∀ e, decode w = .error e →
      step s = .next { s with inputs := rest, event := .none, tblRace := false, rc := .illegalOp })

/-- A step at which the provisioning writer writes existing table bytes during the op (R453) is the op, or the answer to an
unassigned op code (R161), on the table so written, with the record of whether a byte changed (the model's choice of what a
change is: log entry 8). -/
def Obligations.StepWithTableWritesRunsTheDecodedOp : Prop :=
  ∀ (s u : State) (w : Bundle) (cs : List Host.Cell) (rest : List Input) (m : Memory),
    s.inputs = .op w cs :: rest → applyWrites s.params s.tbl cs = some m →
    u = { s with inputs := rest, event := .none, tbl := m, tblRace := cs.any fun c => s.tbl.get c.1 != c.2 } →
    (∀ i, decode w = .ok i → step s = exec i u) ∧
    (∀ e, decode w = .error e → step s = .next { u with rc := .illegalOp })

/-- A step without an op: with no input or a quiet clock the block keeps all state (R417) and an event pulse ends (R452); a
reset gives every state field its reset value and keeps the table (R440, R442); between ops the provisioning writer writes a
byte of the table (R90). -/
def Obligations.StepsWithoutAnOp : Prop :=
  ∀ (s : State) (rest : List Input),
    (s.inputs = [] → step s = .next { s with event := .none }) ∧
    (s.inputs = .quiet :: rest → step s = .next { s with inputs := rest, event := .none }) ∧
    (s.inputs = .reset :: rest → step s = .next
      { State.reset with tbl := s.tbl, params := s.params, inputs := rest, freeIdx := s.freeIdx }) ∧
    (∀ a b, s.inputs = .tblWrite a b :: rest → a < s.params.tblBytes → s.tbl.wf = true →
      ∃ t, step s = .next t ∧ t = { s with inputs := rest, event := .none, tbl := t.tbl } ∧
        ∀ x, t.tbl.get x = if x = a then b else s.tbl.get x)

/-- R64, on the ports: the status ports, the array read ports and the event outputs of the reset state. -/
def Obligations.ResetStateIsThatOfR64 : Prop :=
  statusPorts State.reset =
    { rc := 0x00, crcAcc := 0xFFFF, rxState := 0, rxCmd := 0, rxLen := 0, rxIdx := 0, rxCrcRx := 0x0000, rxCrcCalc := 0xFFFF
      rxEvt := 0, rxFv := 0, txLen := 0, medWr := 0, medCnt := 0, medOut := 0, mafWr := 0, mafCnt := 0, mafOut := 0
      lutOk := 0, lutK := 0, lutC := 0, mapT4 := 0, mapT20 := 0, mapRes := 0, iOut := 0x40800000 } ∧
  eventPorts State.reset = ⟨false, false, false, false⟩ ∧
  (∀ a, rxBufRdata State.reset a = 0x00) ∧ (∀ a, txPlRdata State.reset a = 0x00) ∧ (∀ a, txBufRdata State.reset a = 0x00) ∧
  (∀ a, medRdata State.reset a = 0x00000000) ∧ (∀ a, mafRdata State.reset a = 0x00000000)

/-- The ports of every state. R53: each scalar field on the status port of its name, with the codes of R33, R37 and R400. R54:
the read ports give the array entry, those of `tx_buf` and `med_buf` 0 at addresses that have no entry. R63: each event on its
own output. R55, R82: on parameters that meet R6 the table port carries every address of the table, and `MemRead` is the
little-endian number of the bytes read through it. -/
def Obligations.ReadPortsGiveTheEntryOrZero : Prop :=
  (∀ (s : State) (p : StatusPorts), p = statusPorts s →
    p.rc = (match s.rc with | .ok => 0x00#8 | .illegalOp => 0x01#8 | .medNotFull => 0x02#8 | .tblInvalid => 0x03#8) ∧
    p.crcAcc = s.crcAcc ∧
    p.rxState.toNat = (match s.rxState with
      | .awaitingHead => 0 | .gotCmd => 1 | .gotLen => 2 | .collectingPayload => 3 | .gotCrcLow => 4 | .gotCrcHigh => 5
      | .awaitingTail => 6) ∧
    p.rxCmd = s.rxCmd ∧ p.rxLen = s.rxLen ∧ p.rxIdx = s.rxIdx ∧ p.rxCrcRx = s.rxCrcRx ∧ p.rxCrcCalc = s.rxCrcCalc ∧
    p.rxEvt.toNat = (match s.rxEvt with | .none => 0 | .frameOk => 1 | .crcErr => 2) ∧
    p.rxFv = (if s.rxFv then 1#1 else 0#1) ∧ p.txLen = s.txLen ∧
    p.medWr.toNat = s.medWr.val ∧ p.medCnt.toNat = s.medCnt.val ∧ p.medOut = s.medOut ∧
    p.mafWr.toNat = s.mafWr.val ∧ p.mafCnt.toNat = s.mafCnt.val ∧ p.mafOut = s.mafOut ∧
    p.lutOk = (if s.lutOk then 1#1 else 0#1) ∧ p.lutK = s.lutK ∧ p.lutC = s.lutC ∧
    p.mapT4 = s.mapT4 ∧ p.mapT20 = s.mapT20 ∧ p.mapRes = s.mapRes ∧ p.iOut = s.iOut) ∧
  (∀ s : State,
    (∀ a : BitVec 9, txBufRdata s a = if a.toNat ≤ 260 then s.txBuf.toList.getD a.toNat 0 else 0x00#8) ∧
    (∀ a : BitVec 3, medRdata s a = if a.toNat ≤ 4 then s.medBuf.toList.getD a.toNat 0 else 0x00000000#32) ∧
    (∀ a : BitVec 8, rxBufRdata s a = s.rxBuf.toList.getD a.toNat 0) ∧
    (∀ a : BitVec 8, txPlRdata s a = s.txPl.toList.getD a.toNat 0) ∧
    (∀ a : BitVec 4, mafRdata s a = s.mafWin.toList.getD a.toNat 0)) ∧
  (∀ s : State,
    ((eventPorts s).evFrameOk = true ↔ ∃ cmd len, s.event = .frameOk cmd len) ∧
    ((eventPorts s).evCrcErr = true ↔ ∃ cmd, s.event = .crcErr cmd) ∧
    ((eventPorts s).evTxReady = true ↔ ∃ len, s.event = .txReady len) ∧
    ((eventPorts s).evIoutUpd = true ↔ ∃ x, s.event = .ioutUpdate x)) ∧
  (∀ (p : Params) (m : Memory) (a : Nat), p.wf = true →
    (a < p.tblBytes → (tblAddr p a).toNat = a ∧ tblRdata p m (tblAddr p a) = m.get a) ∧
    (a + 2 ≤ p.tblBytes → memRead p m a 2 = some ((m.get a).toNat + 256 * (m.get (a + 1)).toNat)) ∧
    (a + 4 ≤ p.tblBytes → memRead p m a 4 = some (tblWord m a)))

/-- R401, R406, R87: no op stops, in any state, with any operand, for any parameters that meet R6. -/
def Obligations.EveryOpCompletes : Prop :=
  ∀ (i : Instr) (s : State), s.params.wf = true → ∃ t, exec i s = .next t

/-- R402: the result codes each op can write. -/
def Obligations.ResultCodesOfEachOp : Prop :=
  ∀ (i : Instr) (s t : State), exec i s = .next t →
    t.rc = .ok ∨
    ((i = .medEval ∨ i = .medMaf) ∧ t.rc = .medNotFull) ∨
    ((i = .lutVerify ∨ ∃ v, i = .lutLookup v) ∧ t.rc = .tblInvalid)

/-- R404: what an error leaves behind. `MED_NOTFULL` writes only `rc`; `TBL_INVALID`, on a table that does not change during the
op, writes `lut_ok = 0` and, from LUT_LOOKUP, the sentinel. -/
def Obligations.ErrorsNeverHalfApplyAnOp : Prop :=
  ∀ (i : Instr) (s t : State), exec i s = .next t →
    (t.rc = .medNotFull → t = { s with rc := .medNotFull }) ∧
    (t.rc = .tblInvalid → s.tblRace = false →
      (i = .lutVerify ∧ t = { s with lutOk := false, rc := .tblInvalid }) ∨
      (∃ v, i = .lutLookup v ∧
        t = { s with lutOk := false, lutK := 0x00000000, lutC := 0xC3889333, rc := .tblInvalid }))

/-- R80 ("read-only (to the block)"), R6: no op changes a byte of the table, a parameter, or what the controller will do. -/
def Obligations.NoOpWritesTheTable : Prop :=
  ∀ (i : Instr) (s t : State), exec i s = .next t →
    (∀ a, t.tbl.get a = s.tbl.get a) ∧ t.params = s.params ∧ t.inputs = s.inputs ∧ t.tblRace = s.tblRace

/-- The canonical form of the table: two canonical memories that read alike at every address are the same data (whatever an
unlisted address reads as: log entry 3). -/
def Obligations.MemoriesThatReadAlikeAreEqual : Prop :=
  ∀ m m' : Memory, m.wf = true → m'.wf = true → (∀ a, m.get a = m'.get a) → m = m'

/-! ## Control and CRC -/

/-- R160: NOP, whatever its other fields hold. -/
def Obligations.NopWritesOnlyRc : Prop :=
  (∀ w : Bundle, opField w = 0x00 → decode w = .ok .nop) ∧
  ∀ s : State, exec .nop s = .next { s with rc := .ok }

/-- R182, R183: CRC_INIT and CRC_BYTE write `crc_acc` and `rc` only. -/
def Obligations.CrcOpsWriteTheAccumulator : Prop :=
  (∀ w : Bundle, opField w = 0x10 → decode w = .ok .crcInit) ∧
  (∀ w : Bundle, opField w = 0x11 → decode w = .ok (.crcByte (w.extractLsb' 8 8))) ∧
  ∀ s : State,
    exec .crcInit s = .next { s with crcAcc := 0xFFFF#16, rc := .ok } ∧
    ∀ d, exec (.crcByte d) s = .next { s with crcAcc := crc16Step s.crcAcc d, rc := .ok }

/-- R181, R183, R184: CRC_INIT and then CRC_BYTE over a byte sequence leave its CRC-16/MODBUS, by the catalogue's parameters
(0x8005 in normal form, reflected input and output), in `crc_acc`. -/
def Obligations.CrcOfBytesIsCrc16Modbus : Prop :=
  ∀ (bytes : List Byte) (s : State),
    execList (Pseudo.expand (.crcOf bytes)) s = .next { s with crcAcc := crcModbus bytes, rc := .ok }

/-- R184: the bit-at-a-time step is the step of a table-driven CRC-16/MODBUS. -/
def Obligations.CrcStepIsTableDriven : Prop :=
  ∀ (c : Half) (d : Byte), crc16Step c d = (c >>> 8) ^^^ crc16Step 0x0000#16 (c.extractLsb' 0 8 ^^^ d)

/-- 95_test_vectors.md V-SRC-2: each step is affine over GF(2). -/
def Obligations.CrcIsAffine : Prop :=
  ∀ x y : List Byte, x.length = y.length →
    crc16 (List.zipWith (· ^^^ ·) x y) = crc16 x ^^^ crc16 y ^^^ crc16 (List.replicate x.length 0x00#8)

/-! ## Frame parser -/

/-- R202, R211: RX_FEED in each parser state, with each kind of byte. -/
def Obligations.RxFeedInEachState : Prop :=
  (∀ w : Bundle, opField w = 0x20 → decode w = .ok (.rxFeed (w.extractLsb' 8 8))) ∧
  ∀ (d : Byte) (s : State),
    (s.rxState = .awaitingHead → d ≠ 0xAA#8 → exec (.rxFeed d) s = .next { s with rxEvt := .none, rc := .ok }) ∧
    (s.rxState = .awaitingHead → d = 0xAA#8 → exec (.rxFeed d) s = .next
      { s with rxEvt := .none, rc := .ok, rxFv := false, rxIdx := 0, rxCrcCalc := 0xFFFF#16, rxState := .gotCmd }) ∧
    (s.rxState = .gotCmd → exec (.rxFeed d) s = .next
      { s with rxEvt := .none, rc := .ok, rxCmd := d, rxCrcCalc := crc16Step s.rxCrcCalc d, rxState := .gotLen }) ∧
    (s.rxState = .gotLen → d = 0x00#8 → exec (.rxFeed d) s = .next
      { s with rxEvt := .none, rc := .ok, rxLen := d, rxIdx := 0, rxCrcCalc := crc16Step s.rxCrcCalc d,
               rxState := .gotCrcLow }) ∧
    (s.rxState = .gotLen → d ≠ 0x00#8 → exec (.rxFeed d) s = .next
      { s with rxEvt := .none, rc := .ok, rxLen := d, rxIdx := 0, rxCrcCalc := crc16Step s.rxCrcCalc d,
               rxState := .collectingPayload }) ∧
    (s.rxState = .collectingPayload → s.rxIdx + 1 ≠ s.rxLen → exec (.rxFeed d) s = .next
      { s with rxEvt := .none, rc := .ok, rxBuf := s.rxBuf.setIfInBounds s.rxIdx.toNat d, rxIdx := s.rxIdx + 1,
               rxCrcCalc := crc16Step s.rxCrcCalc d }) ∧
    (s.rxState = .collectingPayload → s.rxIdx + 1 = s.rxLen → exec (.rxFeed d) s = .next
      { s with rxEvt := .none, rc := .ok, rxBuf := s.rxBuf.setIfInBounds s.rxIdx.toNat d, rxIdx := s.rxIdx + 1,
               rxCrcCalc := crc16Step s.rxCrcCalc d, rxState := .gotCrcLow }) ∧
    (s.rxState = .gotCrcLow → exec (.rxFeed d) s = .next
      { s with rxEvt := .none, rc := .ok, rxCrcRx := d.setWidth 16, rxState := .gotCrcHigh }) ∧
    (s.rxState = .gotCrcHigh → exec (.rxFeed d) s = .next
      { s with rxEvt := .none, rc := .ok, rxCrcRx := d ++ s.rxCrcRx.extractLsb' 0 8, rxState := .awaitingTail }) ∧
    (s.rxState = .awaitingTail → d = 0x55#8 → s.rxCrcRx = s.rxCrcCalc → exec (.rxFeed d) s = .next
      { s with rxEvt := .frameOk, rc := .ok, rxFv := true, rxState := .awaitingHead,
               event := .frameOk s.rxCmd s.rxLen }) ∧
    (s.rxState = .awaitingTail → d = 0x55#8 → s.rxCrcRx ≠ s.rxCrcCalc → exec (.rxFeed d) s = .next
      { s with rxEvt := .crcErr, rc := .ok, rxState := .awaitingHead, event := .crcErr s.rxCmd }) ∧
    (s.rxState = .awaitingTail → d ≠ 0x55#8 → exec (.rxFeed d) s = .next
      { s with rxEvt := .none, rc := .ok, rxState := .awaitingHead })

/-- R210: RX_RESET. -/
def Obligations.RxResetAbandonsTheFrame : Prop :=
  (∀ w : Bundle, opField w = 0x21 → decode w = .ok .rxReset) ∧
  ∀ s : State, exec .rxReset s = .next { s with rxState := .awaitingHead, rxEvt := .none, rxFv := false, rc := .ok }

/-- R206: while `rx_fv = 1` the frame held does not change, whatever the op. -/
def Obligations.ValidatedFrameIsHeld : Prop :=
  ∀ (i : Instr) (s t : State), exec i s = .next t → s.rxState = .awaitingHead → s.rxFv = true → t.rxFv = true →
    t.rxCmd = s.rxCmd ∧ t.rxLen = s.rxLen ∧ t.rxBuf = s.rxBuf

/-- R201, R206: every step keeps what the running CRC and the frame-valid flag say of the frame. -/
def Obligations.StepKeepsTheParserInvariant : Prop :=
  ∀ s t : State, ParserInv s → step s = .next t → ParserInv t

/-- R209: a frame built by the encoder's rule and fed byte by byte to a parser in AwaitingHead is recognised: one `FrameOk`, on
the last byte, with the same command and payload. -/
def Obligations.FrameRoundTrip : Prop :=
  ∀ (cmd : Byte) (p : List Byte) (s : State), p.length ≤ 255 → s.rxState = .awaitingHead → s.event = .none →
    (∃ t, execList ((buildFrame cmd p).map .rxFeed) s = .next t ∧
      t.event = .frameOk cmd (BitVec.ofNat 8 p.length) ∧ t.rxState = .awaitingHead ∧ t.rxEvt = .frameOk ∧ t.rxFv = true ∧
      t.rxCmd = cmd ∧ t.rxLen.toNat = p.length ∧ rxPayload t = p) ∧
    (∀ (k : Nat) (t : State), k < p.length + 6 →
      execList (((buildFrame cmd p).take k).map .rxFeed) s = .next t → t.event = .none)

/-! ## Frame encoder -/

/-- R241: TX_PL_WRITE, for every index. -/
def Obligations.TxPlWriteStagesOneByte : Prop :=
  (∀ w : Bundle, opField w = 0x30 → decode w = .ok (.txPlWrite (w.extractLsb' 16 8) (w.extractLsb' 8 8))) ∧
  ∀ (idx d : Byte) (s : State), ∃ t, exec (.txPlWrite idx d) s = .next t ∧
    t = { s with txPl := t.txPl, rc := .ok } ∧
    ∀ a, txPlRdata t a = if a = idx then d else txPlRdata s a

/-- R242: TX_ACK emits the 7-byte frame whose payload is the status byte. -/
def Obligations.TxAckEmitsTheAckFrame : Prop :=
  (∀ w : Bundle, opField w = 0x31 → decode w = .ok (.txAck (w.extractLsb' 8 8) (w.extractLsb' 16 8))) ∧
  ∀ (cmd status : Byte) (s : State), ∃ t, exec (.txAck cmd status) s = .next t ∧ Emitted s t cmd [status]

/-- R243: TX_DATA emits the frame of the first `n` staged bytes, for every `n`. -/
def Obligations.TxDataEmitsTheStagedPayload : Prop :=
  (∀ w : Bundle, opField w = 0x32 → decode w = .ok (.txData (w.extractLsb' 8 8) (w.extractLsb' 16 8))) ∧
  ∀ (cmd n : Byte) (s : State), ∃ t, exec (.txData cmd n) s = .next t ∧
    Emitted s t cmd ((List.range n.toNat).map fun k => s.txPl.toList.getD k 0)

/-- R244: TX_REPORT emits the three patterns, little-endian, in argument order. -/
def Obligations.TxReportEmitsTheThreePatterns : Prop :=
  (∀ w : Bundle, opField w = 0x33 →
    decode w = .ok (.txReport (w.extractLsb' 8 8) (w.extractLsb' 16 32) (w.extractLsb' 48 32) (w.extractLsb' 80 32))) ∧
  ∀ (cmd : Byte) (temp volt cur : B32) (s : State), ∃ t, exec (.txReport cmd temp volt cur) s = .next t ∧
    Emitted s t cmd ((List.range 12).map fun k => (cur ++ volt ++ temp : BitVec 96).extractLsb' (8 * k) 8)

/-! ## Median filter -/

/-- R281, R283: MED_PUSH and MED_CLEAR. -/
def Obligations.MedPushAndClear : Prop :=
  (∀ w : Bundle, opField w = 0x40 → decode w = .ok (.medPush (w.extractLsb' 16 32))) ∧
  (∀ w : Bundle, opField w = 0x42 → decode w = .ok .medClear) ∧
  ∀ s : State,
    (∀ x, ∃ t, exec (.medPush x) s = .next t ∧
      t = { s with medBuf := t.medBuf, medWr := t.medWr, medCnt := t.medCnt, rc := .ok } ∧
      t.medWr.val = (s.medWr.val + 1) % 5 ∧ t.medCnt.val = min (s.medCnt.val + 1) 5 ∧
      ∀ (k : Nat) (h : k < 5), t.medBuf[k] = if k = s.medWr.val then x else s.medBuf[k]) ∧
    exec .medClear s = .next { s with medBuf := #v[0, 0, 0, 0, 0], medWr := 0, medCnt := 0, rc := .ok }

/-- R282, R280: MED_EVAL gives `MED_NOTFULL` on a partial ring; on a full ring it writes the sample that has at most two samples
below it and at most two above it in the total order. -/
def Obligations.MedEvalWritesTheMiddleSample : Prop :=
  (∀ w : Bundle, opField w = 0x41 → decode w = .ok .medEval) ∧
  ∀ s : State,
    (s.medCnt.val < 5 → exec .medEval s = .next { s with rc := .medNotFull }) ∧
    (s.medCnt.val = 5 → ∃ m, exec .medEval s = .next { s with medOut := m, rc := .ok } ∧ m ∈ s.medBuf.toList ∧
      (s.medBuf.toList.filter fun x => decide ((key x).toNat < (key m).toNat)).length ≤ 2 ∧
      (s.medBuf.toList.filter fun x => decide ((key m).toNat < (key x).toNat)).length ≤ 2)

/-- R284 (d): with any two samples arbitrary, the median stays within the range of the other three. -/
def Obligations.MedianRejectsTwoOutliers : Prop :=
  ∀ (w : Vector B32 5) (i j : Fin 5), ∃ lo hi : Fin 5, lo ≠ i ∧ lo ≠ j ∧ hi ≠ i ∧ hi ≠ j ∧
    (key w[lo]).toNat ≤ (key (median5 w)).toNat ∧ (key (median5 w)).toNat ≤ (key w[hi]).toNat

/-! ## Moving-average filter -/

/-- R303, R304: MAF_PUSH and MAF_CLEAR; the mean is of the valid entries after the push (R300). -/
def Obligations.MafPushAndClear : Prop :=
  (∀ w : Bundle, opField w = 0x50 → decode w = .ok (.mafPush (w.extractLsb' 16 32))) ∧
  (∀ w : Bundle, opField w = 0x51 → decode w = .ok .mafClear) ∧
  ∀ s : State,
    (∀ x, ∃ t, exec (.mafPush x) s = .next t ∧
      t = { s with mafWin := t.mafWin, mafWr := t.mafWr, mafCnt := t.mafCnt, mafOut := t.mafOut, rc := .ok } ∧
      t.mafWr.val = (s.mafWr.val + 1) % 16 ∧ t.mafCnt.val = min (s.mafCnt.val + 1) 16 ∧
      (∀ (k : Nat) (h : k < 16), t.mafWin[k] = if k = s.mafWr.val then x else s.mafWin[k]) ∧
      t.mafOut = mean (t.mafWin.toList.take t.mafCnt.val)) ∧
    exec .mafClear s = .next
      { s with mafWin := Vector.replicate 16 0x00000000#32, mafWr := 0, mafCnt := 0, mafOut := 0x00000000#32, rc := .ok }

/-- R305: "MED_MAF equals MED_EVAL followed by `MAF_PUSH med_out`, in one op and with one `rc`"; on a partial ring it writes
`rc` only. -/
def Obligations.MedMafIsMedEvalThenMafPush : Prop :=
  (∀ w : Bundle, opField w = 0x52 → decode w = .ok .medMaf) ∧
  ∀ s : State,
    (s.medCnt.val < 5 → exec .medMaf s = .next { s with rc := .medNotFull }) ∧
    (s.medCnt.val = 5 → ∃ e t, exec .medEval s = .next e ∧ exec (.mafPush e.medOut) e = .next t ∧ exec .medMaf s = .next t)

/-- R302: the special-value rows of `Mean`, in their order, and the sign of a zero mean. -/
def Obligations.MeanOfSpecialValues : Prop :=
  ∀ w : List B32, w ≠ [] →
    ((∃ x ∈ w, isNaN x = true) → mean w = 0x7FC00000#32) ∧
    ((∀ x ∈ w, isNaN x = false) → 0x7F800000#32 ∈ w → 0xFF800000#32 ∈ w → mean w = 0x7FC00000#32) ∧
    ((∀ x ∈ w, isNaN x = false) → 0x7F800000#32 ∈ w → 0xFF800000#32 ∉ w → mean w = 0x7F800000#32) ∧
    ((∀ x ∈ w, isNaN x = false) → 0x7F800000#32 ∉ w → 0xFF800000#32 ∈ w → mean w = 0xFF800000#32) ∧
    ((∀ x ∈ w, isFinite x = true) → (w.map value).sum = 0 →
      mean w = if w = List.replicate w.length 0x80000000#32 then 0x80000000#32 else 0x00000000#32)

/-- R302: of a window of finite values the mean is a finite pattern nearest to the exact mean, in a tie the one with even
fraction (R15): no rounding but one, and no overflow. A mean that rounds to a zero keeps the sign of the exact mean. -/
def Obligations.MeanIsNearestToTheExactMean : Prop :=
  ∀ (w : List B32) (q : ℚ), w ≠ [] → (∀ x ∈ w, isFinite x = true) → q = (w.map value).sum / (w.length : ℚ) →
    isFinite (mean w) = true ∧
    (∀ y : B32, isFinite y = true →
      |value (mean w) - q| ≤ |value y - q| ∧
      (|value (mean w) - q| = |value y - q| → value y ≠ value (mean w) → (mean w).getLsbD 0 = false)) ∧
    (0 < q → value (mean w) = 0 → mean w = 0x00000000#32) ∧
    (q < 0 → value (mean w) = 0 → mean w = 0x80000000#32)

/-- R306 (c): the mean does not depend on the order of the window. -/
def Obligations.MeanIgnoresTheOrderOfTheWindow : Prop :=
  ∀ v w : List B32, v.Perm w → mean v = mean w

/-- R306 (d): the mean of finite values lies between the least and the greatest of them. -/
def Obligations.MeanLiesWithinTheWindow : Prop :=
  ∀ w : List B32, w ≠ [] → (∀ x ∈ w, isFinite x = true) →
    ∃ lo ∈ w, ∃ hi ∈ w, fle lo (mean w) = true ∧ fle (mean w) hi = true

/-- R306 (a), (b): pushes of one non-NaN value give that value bit for bit, from an empty window after every push, and from
any state after 16 or more; one push of a NaN into an empty window gives the canonical NaN. -/
def Obligations.ConstantPushesConvergeExactly : Prop :=
  (∀ (v : B32) (k : Nat) (s : State), isNaN v = false → StateInv s → s.mafCnt = 0 → 1 ≤ k →
    ∃ t, execList (List.replicate k (.mafPush v)) s = .next t ∧ t.mafOut = v) ∧
  (∀ (v : B32) (k : Nat) (s : State), isNaN v = false → 16 ≤ k →
    ∃ t, execList (List.replicate k (.mafPush v)) s = .next t ∧ t.mafOut = v) ∧
  (∀ (v : B32) (s : State), isNaN v = true → StateInv s → s.mafCnt = 0 →
    ∃ t, exec (.mafPush v) s = .next t ∧ t.mafOut = 0x7FC00000#32)

/-! ## binary32 -/

/-- R15, R10: `value` is the IEEE 754 value of a finite pattern (log entry 16), and `round32` the nearest pattern, ties to even, the grid with
subnormals, infinities from 2^128 − 2^103 on. -/
def Obligations.Round32IsNearestTiesToEven : Prop :=
  (∀ x : B32, isFinite x = true →
    value x = (if x.getLsbD 31 then -1 else 1) *
      (if (x.extractLsb' 23 8).toNat = 0 then ((x.extractLsb' 0 23).toNat : ℚ) / 2 ^ 149
       else (2 ^ 23 + ((x.extractLsb' 0 23).toNat : ℚ)) * 2 ^ (x.extractLsb' 23 8).toNat / 2 ^ 150)) ∧
  round32 0 = 0x00000000#32 ∧
  (∀ q : ℚ, |q| < 2 ^ 128 - 2 ^ 103 →
    isFinite (round32 q) = true ∧
    ∀ y : B32, isFinite y = true →
      |value (round32 q) - q| ≤ |value y - q| ∧
      (|value (round32 q) - q| = |value y - q| → value y ≠ value (round32 q) → (round32 q).getLsbD 0 = false)) ∧
  (∀ q : ℚ, 2 ^ 128 - 2 ^ 103 ≤ q → round32 q = 0x7F800000#32) ∧
  (∀ q : ℚ, q ≤ -(2 ^ 128 - 2 ^ 103) → round32 q = 0xFF800000#32)

/-- R11: the four operations, on every pair of operands. Of finite operands each is the exact result rounded once; of the
others, IEEE 754's infinities and NaNs. The sign of a zero that R11 does not state is IEEE 754's (log entry 16). -/
def Obligations.ArithmeticIsExactThenRounded : Prop :=
  ∀ (x y zero inf : B32), zero = (if x.getLsbD 31 = y.getLsbD 31 then 0x00000000#32 else 0x80000000#32) →
    inf = (if x.getLsbD 31 = y.getLsbD 31 then 0x7F800000#32 else 0xFF800000#32) →
    (isNaN x = true ∨ isNaN y = true → fadd x y = cNaN ∧ fsub x y = cNaN ∧ fmul x y = cNaN ∧ fdiv x y = cNaN) ∧
    (isFinite x = true → isFinite y = true →
      (value x + value y ≠ 0 → fadd x y = round32 (value x + value y)) ∧
      (value x + value y = 0 → fadd x y = if x = nZero ∧ y = nZero then nZero else pZero) ∧
      (value x - value y ≠ 0 → fsub x y = round32 (value x - value y)) ∧
      (value x - value y = 0 → fsub x y = if x = nZero ∧ y = pZero then nZero else pZero) ∧
      (value x * value y ≠ 0 → fmul x y = round32 (value x * value y)) ∧
      (value x * value y = 0 → fmul x y = zero) ∧
      (value x ≠ 0 → value y ≠ 0 → fdiv x y = round32 (value x / value y)) ∧
      (value x = 0 → value y ≠ 0 → fdiv x y = zero) ∧
      (value x ≠ 0 → value y = 0 → fdiv x y = inf) ∧
      (value x = 0 → value y = 0 → fdiv x y = cNaN)) ∧
    (isInf x = true → isFinite y = true →
      fadd x y = x ∧ fsub x y = x ∧ fmul x y = (if isZero y then cNaN else inf) ∧ fdiv x y = inf) ∧
    (isFinite x = true → isInf y = true →
      fadd x y = y ∧ fsub x y = (if y = pInf then nInf else pInf) ∧ fmul x y = (if isZero x then cNaN else inf) ∧
      fdiv x y = zero) ∧
    (isInf x = true → isInf y = true →
      fadd x y = (if x = y then x else cNaN) ∧ fsub x y = (if x = y then cNaN else x) ∧ fmul x y = inf ∧ fdiv x y = cNaN)

/-- R12: every NaN result of the four operations and of `Clamp` is the canonical NaN. -/
def Obligations.NanResultsAreCanonical : Prop :=
  ∀ x y : B32,
    (isNaN (fadd x y) = true → fadd x y = 0x7FC00000#32) ∧ (isNaN (fsub x y) = true → fsub x y = 0x7FC00000#32) ∧
    (isNaN (fmul x y) = true → fmul x y = 0x7FC00000#32) ∧ (isNaN (fdiv x y) = true → fdiv x y = 0x7FC00000#32) ∧
    (isNaN (clampCurrent x) = true → clampCurrent x = 0x7FC00000#32)

/-- R13: the comparisons are those of the values, false with a NaN, infinities at the ends and each equal to itself, +0 equal
to −0. -/
def Obligations.ComparisonsFollowTheValues : Prop :=
  ∀ x y : B32,
    (isNaN x = true ∨ isNaN y = true →
      flt x y = false ∧ fgt x y = false ∧ fge x y = false ∧ fle x y = false ∧ feq x y = false) ∧
    (isFinite x = true → isFinite y = true →
      (flt x y = true ↔ value x < value y) ∧ (fgt x y = true ↔ value y < value x) ∧ (fge x y = true ↔ value y ≤ value x) ∧
      (fle x y = true ↔ value x ≤ value y) ∧ (feq x y = true ↔ value x = value y)) ∧
    (isNaN x = false → x ≠ pInf → flt x pInf = true) ∧ (isNaN x = false → x ≠ nInf → flt nInf x = true) ∧
    flt pInf x = false ∧ flt x nInf = false ∧ feq pInf pInf = true ∧ feq nInf nInf = true ∧
    (isNaN x = false → isNaN y = false →
      (fgt x y = true ↔ flt y x = true) ∧ (fge x y = true ↔ flt x y = false) ∧ (fle x y = true ↔ flt y x = false) ∧
      (feq x y = true ↔ flt x y = false ∧ flt y x = false))

/-- R14: unsigned order of keys is a total order of the patterns that puts −NaN below −inf, +NaN above +inf, −0 below +0, and
agrees with the values of finite patterns; within a sign it is the order of the patterns, turned over for the negative ones,
NaNs among them; equal keys mean the same pattern. -/
def Obligations.KeyIsATotalOrder : Prop :=
  ∀ x y : B32,
    (key x).toNat = (if x.getLsbD 31 then 0xFFFFFFFF - x.toNat else x.toNat + 0x80000000) ∧
    (key x = key y → x = y) ∧
    (isFinite x = true → isFinite y = true → value x < value y → (key x).toNat < (key y).toNat) ∧
    (key nZero).toNat < (key pZero).toNat ∧
    (isFinite x = true → (key nInf).toNat < (key x).toNat ∧ (key x).toNat < (key pInf).toNat) ∧
    (isNaN x = true → x.getLsbD 31 = true → (key x).toNat < (key nInf).toNat) ∧
    (isNaN x = true → x.getLsbD 31 = false → (key pInf).toNat < (key x).toNat) ∧
    (x.getLsbD 31 = false → y.getLsbD 31 = false → ((key x).toNat < (key y).toNat ↔ x.toNat < y.toNat)) ∧
    (x.getLsbD 31 = true → y.getLsbD 31 = true → ((key x).toNat < (key y).toNat ↔ y.toNat < x.toNat)) ∧
    (x.getLsbD 31 = true → y.getLsbD 31 = false → (key x).toNat < (key y).toNat)

/-! ## Lookup -/

/-- R336, R330: LUT_VERIFY on a table that does not change during it, for parameters that meet R6. -/
def Obligations.LutVerifyChecksTheHeader : Prop :=
  (∀ w : Bundle, opField w = 0x60 → decode w = .ok .lutVerify) ∧
  ∀ s : State, s.params.wf = true → s.tblRace = false →
    (headerValid s.params s.tbl → exec .lutVerify s = .next { s with lutOk := true, rc := .ok }) ∧
    (¬ headerValid s.params s.tbl → exec .lutVerify s = .next { s with lutOk := false, rc := .tblInvalid })

/-- R337, R333, R335: LUT_LOOKUP on an invalid header gives the sentinel; on a valid one, clamped queries copy the temperature
of the first or the last point, and a NaN query gives the canonical NaN; on a one-point table every query that no clamp takes
gives the canonical NaN, one on a point whose voltage is a NaN among them. -/
def Obligations.LutLookupSentinelAndClamps : Prop :=
  (∀ w : Bundle, opField w = 0x61 → decode w = .ok (.lutLookup (w.extractLsb' 16 32))) ∧
  ∀ (v : B32) (s : State), s.params.wf = true → s.tblRace = false →
    (¬ headerValid s.params s.tbl → exec (.lutLookup v) s = .next
      { s with lutOk := false, lutK := 0x00000000#32, lutC := 0xC3889333#32, rc := .tblInvalid }) ∧
    (headerValid s.params s.tbl → fge v (voltAt s.tbl 0) = true →
      exec (.lutLookup v) s = .next (lookedUp s (tempAt s.tbl 0))) ∧
    (headerValid s.params s.tbl → fge v (voltAt s.tbl 0) = false →
      fle v (voltAt s.tbl (headerCount s.tbl - 1)) = true →
      exec (.lutLookup v) s = .next (lookedUp s (tempAt s.tbl (headerCount s.tbl - 1)))) ∧
    (headerValid s.params s.tbl → isNaN v = true → exec (.lutLookup v) s = .next
      { s with lutOk := true, lutK := 0x7FC00000#32, lutC := 0x7FC00000#32, rc := .ok }) ∧
    (headerValid s.params s.tbl → headerCount s.tbl = 1 → fge v (voltAt s.tbl 0) = false →
      fle v (voltAt s.tbl 0) = false → exec (.lutLookup v) s = .next
      { s with lutOk := true, lutK := 0x7FC00000#32, lutC := 0x7FC00000#32, rc := .ok })

/-- R333, R334 (a), (b), (c): an unclamped query on a table of at least two points, well formed or not, interpolates between
the adjacent pair inside the table at which the search loop of R333 ends; on a table whose voltages decrease, and for a query
that is no NaN, the pair brackets it. -/
def Obligations.LutLookupInterpolatesInTheBracket : Prop :=
  ∀ (v : B32) (s : State), s.params.wf = true → s.tblRace = false → headerValid s.params s.tbl → 2 ≤ headerCount s.tbl →
    fge v (voltAt s.tbl 0) = false → fle v (voltAt s.tbl (headerCount s.tbl - 1)) = false →
    ∃ lo, lo + 1 < headerCount s.tbl ∧ SearchEndsAt s.tbl v 0 (headerCount s.tbl - 1) lo (lo + 1) ∧
      exec (.lutLookup v) s = .next (lookedUp s
        (fadd (tempAt s.tbl lo)
          (fdiv (fmul (fsub v (voltAt s.tbl lo)) (fsub (tempAt s.tbl (lo + 1)) (tempAt s.tbl lo)))
            (fsub (voltAt s.tbl (lo + 1)) (voltAt s.tbl lo))))) ∧
      (voltagesDecrease s.tbl (headerCount s.tbl) → isNaN v = false →
        fle (voltAt s.tbl (lo + 1)) v = true ∧ flt v (voltAt s.tbl lo) = true)

/-- R453, 93_implementation_defined.md item 6: the table changes during a LUT op. The op completes; only `lut_ok`, `lut_k`,
`lut_c` and `rc` are written, `rc` within OK and TBL_INVALID (the model also counts its free values: log entry 8). -/
def Obligations.TableChangeDuringALutOp : Prop :=
  ∀ (i : Instr) (s : State), (i = .lutVerify ∨ ∃ v, i = .lutLookup v) → s.tblRace = true →
    ∃ t, exec i s = .next t ∧ (t.rc = .ok ∨ t.rc = .tblInvalid) ∧
      { t with lutOk := s.lutOk, lutK := s.lutK, lutC := s.lutC, rc := s.rc, freeIdx := s.freeIdx } = s

/-! ## Output mapper -/

/-- R373, R374, R375, R376: the calibration setters, MAP_CALC and MAP_UPDATE, by the formula of R370 outside the degenerate
calibration. -/
def Obligations.MapOpsFollowTheFormula : Prop :=
  (∀ w : Bundle, opField w = 0x70 → decode w = .ok (.mapSetT4 (w.extractLsb' 16 32))) ∧
  (∀ w : Bundle, opField w = 0x71 → decode w = .ok (.mapSetT20 (w.extractLsb' 16 32))) ∧
  (∀ w : Bundle, opField w = 0x72 → decode w = .ok (.mapCalc (w.extractLsb' 16 32))) ∧
  (∀ w : Bundle, opField w = 0x73 → decode w = .ok (.mapUpdate (w.extractLsb' 16 32))) ∧
  ∀ (t : B32) (s : State),
    exec (.mapSetT4 t) s = .next { s with mapT4 := t, rc := .ok } ∧
    exec (.mapSetT20 t) s = .next { s with mapT20 := t, rc := .ok } ∧
    (feq s.mapT20 s.mapT4 = false → ∀ x, x = clampCurrent (fadd 0x40800000#32
        (fmul (fdiv (fsub t s.mapT4) (fsub s.mapT20 s.mapT4)) 0x41800000#32)) →
      exec (.mapCalc t) s = .next { s with mapRes := x, rc := .ok } ∧
      exec (.mapUpdate t) s = .next { s with mapRes := x, iOut := x, event := .ioutUpdate x, rc := .ok }) ∧
    (feq s.mapT20 s.mapT4 = true →
      exec (.mapCalc t) s = .next { s with mapRes := 0x41400000#32, rc := .ok } ∧
      exec (.mapUpdate t) s = .next
        { s with mapRes := 0x41400000#32, iOut := 0x41400000#32, event := .ioutUpdate 0x41400000#32, rc := .ok })

/-- R377, R371: MAP_SET_CURRENT drives the clamped current, a NaN as the canonical NaN. -/
def Obligations.MapSetCurrentClamps : Prop :=
  (∀ w : Bundle, opField w = 0x74 → decode w = .ok (.mapSetCurrent (w.extractLsb' 16 32))) ∧
  ∀ (x : B32) (s : State), ∃ y,
    exec (.mapSetCurrent x) s = .next { s with iOut := y, event := .ioutUpdate y, rc := .ok } ∧
    (isNaN x = true → y = 0x7FC00000#32) ∧
    (flt x 0x40800000#32 = true → y = 0x40800000#32) ∧
    (fgt x 0x41A00000#32 = true → y = 0x41A00000#32) ∧
    (fge x 0x40800000#32 = true → fle x 0x41A00000#32 = true → y = x)

/-- R375 ("Division by zero cannot occur"), R379 (c): outside the degenerate calibration the divisor of `Calc` is no zero. -/
def Obligations.CalcNeverDividesByZero : Prop :=
  ∀ t4 t20 : B32, feq t20 t4 = false → isZero (fsub t20 t4) = false

/-- R379 (b), with the span `fsub(T20, T4)` finite: without that premise the span can overflow and the result be a NaN (log
entry 17). -/
def Obligations.CalcIsMonotoneInTheTemperature : Prop :=
  ∀ t4 t20 t t' : B32, isFinite t4 = true → isFinite t20 = true → isFinite t = true → isFinite t' = true →
    isFinite (fsub t20 t4) = true → fle t t' = true →
    (flt t4 t20 = true → fle (calcCurrent t4 t20 t) (calcCurrent t4 t20 t') = true) ∧
    (flt t20 t4 = true → fle (calcCurrent t4 t20 t') (calcCurrent t4 t20 t) = true)

/-! ## Whole-machine invariants -/

/-- R50 (a) to (f), with the table in canonical form, and R201: the reset state has them. -/
def Obligations.ResetMeetsTheInvariants : Prop :=
  StateInv State.reset ∧ ParserInv State.reset

/-- R50 (a) to (f): "holding after reset and after every op", and the table's canonical form: every step keeps them. -/
def Obligations.StepKeepsTheStateInvariants : Prop :=
  ∀ s t : State, StateInv s → step s = .next t → StateInv t

/-- R457, R162: an op leaves every other unit's state unchanged; MED_MAF alone writes two units, `med_out` of the median
filter and the moving-average window. -/
def Obligations.OpsLeaveOtherUnitsUnchanged : Prop :=
  ∀ (i : Instr) (s t : State), exec i s = .next t →
    (∀ u : BlockUnit, u ≠ unitOf i → (i = .medMaf → u ≠ .med) → sameUnit u s t) ∧
    (i = .medMaf → t.medBuf = s.medBuf ∧ t.medWr = s.medWr ∧ t.medCnt = s.medCnt)

/-- R457: "no op of one unit reads the state of another", but for MED_MAF, which reads the median ring. Two states that agree
on the op's unit, on the table and on the parameters give results that agree on the unit, on `rc`, and on the event the op
produces. -/
def Obligations.OpsReadOnlyTheirOwnUnit : Prop :=
  ∀ (i : Instr) (s s' t : State), exec i s = .next t → sameUnit (unitOf i) s s' → samePlatform s s' →
    s.event = s'.event → (i = .medMaf → sameUnit .med s s') →
    ∃ t', exec i s' = .next t' ∧ sameUnit (unitOf i) t t' ∧ samePlatform t t' ∧ t.rc = t'.rc ∧ t.event = t'.event ∧
      (i = .medMaf → sameUnit .med t t')

/-! ## Clock grain -/

/-- R450, R451, R452: a bundle accepted at an edge completes `LAT(op)` edges on, the acceptance included, with the result of the
architectural step, whatever the controller offers and the writer writes meanwhile; until then `cmd_ready` and the event
outputs are 0. In the clock after, every port shows that result, its event among it; after one more edge without an op the
ports show it with the event over. Which edge completes the op is the model's choice: log entry 6. -/
def Obligations.AcceptedOpCompletesAfterItsLatency : Prop :=
  ∀ (c : Clocked) (w : Bundle) (written : List Host.Cell) (waits : List Pins) (t : State),
    c.live = true → c.flight = none → waits.length + 1 = latency c (opField w) → (∀ p ∈ waits, p.rst = false) →
    step { c.arch with inputs := .op w (written ++ waits.flatMap Pins.tblWr) :: c.arch.inputs } = .next t →
    (∃ c', runTicks (⟨false, true, w, written⟩ :: waits) c = .next c' ∧
      c'.arch = t ∧ c'.flight = none ∧ c'.live = true ∧ portsShow c' t ∧
      ∀ q : Pins, q.rst = false → q.cmdValid = false → q.tblWr = [] →
        ∃ c'', tick q c' = .next c'' ∧ portsShow c'' { t with event := .none }) ∧
    (∀ (k : Nat) (c' : Clocked) (p : Pins), k < waits.length →
      runTicks (⟨false, true, w, written⟩ :: waits.take k) c = .next c' →
      cmdReady p c' = false ∧ visibleEvents p c' = ⟨false, false, false, false⟩)

/-- R440, R442: an edge with `rst = 1`, at any clock, an op in progress or not: every port shows the reset state in the clock
after, no op is in progress, no event, and the table keeps its bytes, those that the writer has written since the acceptance
and at this edge among them. What else is kept is the model's choice: log entry 19. -/
def Obligations.ResetEdgeAtAnyClock : Prop :=
  ∀ (c : Clocked) (p : Pins) (m : Memory), p.rst = true →
    applyWrites c.arch.params c.arch.tbl (c.flight.elim [] InFlight.written ++ p.tblWr) = some m →
    cmdReady p c = false ∧ visibleEvents p c = ⟨false, false, false, false⟩ ∧
    ∃ c', tick p c = .next c' ∧ c'.flight = none ∧ c'.live = true ∧
      c'.arch = { State.reset with
        tbl := m, params := c.arch.params, inputs := c.arch.inputs, freeIdx := c.arch.freeIdx } ∧
      portsShow c' State.reset

/-- R452, R417, R441 (93_implementation_defined.md item 4): an edge at which no op is offered ends an event pulse and changes
nothing else; an op offered before the first reset is refused (log entry 12). -/
def Obligations.EventPulseEndsAndEarlyOpsAreRefused : Prop :=
  ∀ (c : Clocked) (p : Pins), p.rst = false → p.tblWr = [] →
    (c.live = true → c.flight = none → p.cmdValid = false →
      ∃ c', tick p c = .next c' ∧ c'.arch = { c.arch with event := .none } ∧ c'.flight = none) ∧
    (c.live = false → p.cmdValid = true → tick p c = .refused .opBeforeReset)
end

