-- ==== Sys2Proof/Laws/Clock.lean ====
section
/-! SUPPORT. What the ports show at clock grain, said once. -/

namespace Sys2Proof.Machine

/-- With no reset, an idle block that has been reset since power-up shows its ports (R451). -/
theorem portsValid_of_idle {q : Pins} {c : Clocked} (hq : q.rst = false) (hl : c.live = true) (hf : c.flight = none) :
    portsValid q c = true := by
  simp [portsValid, hq, hl, hf]

/-- While an op is in progress, and while `rst = 1`, no port is meaningful (R440, R451). -/
theorem portsValid_of_busy {q : Pins} {c : Clocked} (h : q.rst = true ∨ c.flight ≠ none) : portsValid q c = false := by
  rcases h with h | h
  · simp [portsValid, h]
  · simp [portsValid, Option.isNone_eq_false_iff, Option.isSome_iff_ne_none.mpr h]

/-- An idle block shows its state on every port. -/
theorem portsShow_of_idle {c : Clocked} (hl : c.live = true) (hf : c.flight = none) : portsShow c c.arch := by
  intro q hq
  have hv := portsValid_of_idle hq hl hf
  simp [cmdReady, visibleStatus, visibleEvents, visibleRxBuf, visibleTxPl, visibleTxBuf, visibleMed, visibleMaf, visibleByte,
    visibleWord, hv, hl]

/-- With no op in progress the table is that of the state. -/
theorem tableNow_idle {c : Clocked} (hf : c.flight = none) : tableNow c = c.arch.tbl := by
  simp [tableNow, hf]

end Sys2Proof.Machine
end

