-- ==== Sys2Proof/Laws/Memory.lean ====
section
/-! SUPPORT. The table memory: read after write, and the canonical form, which every memory operation keeps. -/

namespace Sys2Proof.Machine

theorem Memory.wfFrom_mono {lo lo' : Nat} (h : lo' ≤ lo) : ∀ m : Memory, Memory.wfFrom lo m = true → Memory.wfFrom lo' m = true
  | [], _ => rfl
  | (k, b) :: rest, hw => by
    simp only [Memory.wfFrom, Bool.and_eq_true, decide_eq_true_eq] at hw ⊢
    exact ⟨⟨h.trans hw.1.1, hw.1.2⟩, hw.2⟩

/-- An address below every listed one reads as the blank byte. -/
theorem Memory.get_eq_blank {lo a : Nat} (h : a < lo) : ∀ m : Memory, Memory.wfFrom lo m = true → m.get a = blankByte
  | [], _ => rfl
  | (k, b) :: rest, hw => by
    simp only [Memory.wfFrom, Bool.and_eq_true, decide_eq_true_eq] at hw
    have hk : k ≠ a := by omega
    simp only [Memory.get, hk, if_false]
    exact Memory.get_eq_blank (by omega) rest hw.2

theorem Memory.write_wfFrom {lo a : Nat} (b : Byte) (h : lo ≤ a) :
    ∀ m : Memory, Memory.wfFrom lo m = true → Memory.wfFrom lo (m.write a b) = true
  | [], _ => by
    by_cases hb : b = blankByte
    · simp [Memory.write, hb, Memory.wfFrom]
    · simp [Memory.write, hb, Memory.wfFrom, h]
  | (k, c) :: rest, hw => by
    have hw' := hw
    simp only [Memory.wfFrom, Bool.and_eq_true, decide_eq_true_eq, bne_iff_ne] at hw'
    obtain ⟨⟨hk, hc⟩, hr⟩ := hw'
    unfold Memory.write
    by_cases h1 : a < k
    · by_cases hb : b = blankByte
      · simpa only [h1, hb, if_true] using hw
      · simp only [h1, hb, if_true, if_false, Memory.wfFrom, Bool.and_eq_true, decide_eq_true_eq, bne_iff_ne]
        exact ⟨⟨h, hb⟩, ⟨by omega, hc⟩, hr⟩
    · by_cases h2 : a = k
      · subst h2
        by_cases hb : b = blankByte
        · simp only [lt_irrefl, hb, if_true, if_false]
          exact Memory.wfFrom_mono (by omega) rest hr
        · simp only [lt_irrefl, hb, if_true, if_false, Memory.wfFrom, Bool.and_eq_true, decide_eq_true_eq, bne_iff_ne]
          exact ⟨⟨h, hb⟩, hr⟩
      · simp only [h1, h2, if_false, Memory.wfFrom, Bool.and_eq_true, decide_eq_true_eq, bne_iff_ne]
        exact ⟨⟨hk, hc⟩, Memory.write_wfFrom b (by omega) rest hr⟩

/-- A write keeps the canonical form. -/
theorem Memory.write_wf {m : Memory} (a : Nat) (b : Byte) (h : m.wf = true) : (m.write a b).wf = true :=
  Memory.write_wfFrom b (Nat.zero_le a) m h

theorem Memory.get_write_from {lo : Nat} (a x : Nat) (b : Byte) :
    ∀ m : Memory, Memory.wfFrom lo m = true → (m.write a b).get x = if x = a then b else m.get x
  | [], _ => by
    by_cases hb : b = blankByte
    · simp [Memory.write, hb, Memory.get]
    · simp [Memory.write, hb, Memory.get, eq_comm]
  | (k, c) :: rest, hw => by
    simp only [Memory.wfFrom, Bool.and_eq_true, decide_eq_true_eq] at hw
    have hr := hw.2
    unfold Memory.write
    by_cases h1 : a < k
    · by_cases hb : b = blankByte
      · subst hb
        simp only [h1, if_true]
        by_cases hx : x = a
        · subst hx
          have hkx : k ≠ x := by omega
          simp only [Memory.get, hkx, if_true, if_false]
          exact Memory.get_eq_blank (by omega) rest hr
        · simp only [hx, if_false]
      · simp only [h1, hb, if_true, if_false]
        simp only [Memory.get, eq_comm]
    · by_cases h2 : a = k
      · subst h2
        by_cases hb : b = blankByte
        · subst hb
          simp only [lt_irrefl, if_true, if_false]
          by_cases hx : x = a
          · subst hx
            simp only [if_true]
            exact Memory.get_eq_blank (by omega) rest hr
          · have hax : a ≠ x := fun e => hx e.symm
            simp only [Memory.get, hx, hax, if_false]
        · simp only [lt_irrefl, hb, if_true, if_false]
          by_cases hx : x = a
          · simp only [Memory.get, hx, if_true]
          · have hax : a ≠ x := fun e => hx e.symm
            simp only [Memory.get, hx, hax, if_false]
      · simp only [h1, h2, if_false, Memory.get]
        by_cases hkx : k = x
        · have hxa : x ≠ a := by omega
          simp only [hkx, hxa, if_true, if_false]
        · simp only [hkx, if_false]
          exact Memory.get_write_from a x b rest hr

/-- A byte written is read back, and every other address keeps its byte. -/
theorem Memory.get_write {m : Memory} (a x : Nat) (b : Byte) (h : m.wf = true) :
    (m.write a b).get x = if x = a then b else m.get x :=
  Memory.get_write_from a x b m h

/-- Where a written memory has an entry, it had one or it is the byte written. -/
theorem Memory.mem_write {a : Nat} {b : Byte} {c : Host.Cell} :
    ∀ {m : Memory}, c ∈ m.write a b → c ∈ m ∨ c = (a, b)
  | [], h => by
    by_cases hb : b = blankByte
    · simp [Memory.write, hb] at h
    · simp only [Memory.write, hb, if_false, List.mem_singleton] at h
      exact .inr h
  | (k, e) :: rest, h => by
    unfold Memory.write at h
    split at h
    · split at h
      · exact .inl h
      · rcases List.mem_cons.1 h with h | h
        · exact .inr h
        · exact .inl h
    · split at h
      · split at h
        · exact .inl (List.mem_cons_of_mem _ h)
        · rcases List.mem_cons.1 h with h | h
          · exact .inr h
          · exact .inl (List.mem_cons_of_mem _ h)
      · rcases List.mem_cons.1 h with h | h
        · exact .inl (h ▸ List.mem_cons_self)
        · rcases Memory.mem_write h with h | h
          · exact .inl (List.mem_cons_of_mem _ h)
          · exact .inr h

/-- The provisioning writer's bytes keep the canonical form and existing addresses. -/
theorem applyWrites_spec {p : Params} : ∀ {cs : List Host.Cell} {m m' : Memory}, applyWrites p m cs = some m' → m.wf = true →
    (∀ c ∈ m, c.1 < p.tblBytes) → m'.wf = true ∧ ∀ c ∈ m', c.1 < p.tblBytes
  | [], m, m', h, hw, hi => by
    simp only [applyWrites, Option.some.injEq] at h
    exact h ▸ ⟨hw, hi⟩
  | c :: cs, m, m', h, hw, hi => by
    unfold applyWrites at h
    split at h
    · rename_i hc
      refine applyWrites_spec h (Memory.write_wf c.1 c.2 hw) fun d hd => ?_
      rcases Memory.mem_write hd with hd | hd
      · exact hi d hd
      · exact hd ▸ hc
    · cases h

/-- With existing addresses the writer's bytes always reach the table. -/
theorem applyWrites_isSome {p : Params} : ∀ (cs : List Host.Cell) (m : Memory), (∀ c ∈ cs, c.1 < p.tblBytes) →
    ∃ m', applyWrites p m cs = some m'
  | [], m, _ => ⟨m, rfl⟩
  | c :: cs, m, h => by
    unfold applyWrites
    rw [if_pos (h c List.mem_cons_self)]
    exact applyWrites_isSome cs _ fun d hd => h d (List.mem_cons_of_mem _ hd)

/-- The reset state's memory has the canonical form. -/
theorem reset_tbl_wf : State.reset.tbl.wf = true := rfl

/-- On parameters that meet R6 the table port carries every existing address whole (R55, R80). -/
theorem tblAddr_toNat {p : Params} {a : Nat} (hp : p.tblBytes ≤ 2 ^ p.tblAw) (h : a < p.tblBytes) :
    (tblAddr p a).toNat = a := by
  simp only [tblAddr, BitVec.toNat_ofNat]
  exact Nat.mod_eq_of_lt (by omega)

/-- A read of one byte through the port answers the byte of the table, where the address exists. -/
theorem tblByte_eq {p : Params} {a : Nat} (m : Memory) (hp : p.tblBytes ≤ 2 ^ p.tblAw) (h : a < p.tblBytes) :
    tblByte p m a = some (m.get a) := by
  simp only [tblByte, h, if_true, tblRdata, tblAddr_toNat hp h]

/-- Of parameters that meet R6: enough address bits for the table. -/
theorem tblBytes_le_of_wf {p : Params} (h : p.wf = true) : p.tblBytes ≤ 2 ^ p.tblAw := by
  simp only [Params.wf, Bool.and_eq_true, decide_eq_true_eq] at h
  exact h.2

/-- `MemRead` of existing addresses is the little-endian number of the bytes that stand there (R9, R82). -/
theorem memRead_eq {p : Params} (m : Memory) (hp : p.tblBytes ≤ 2 ^ p.tblAw) : ∀ (n a : Nat), a + n ≤ p.tblBytes →
    memRead p m a n = some (leNumber ((List.range' a n).map m.get))
  | 0, _, _ => rfl
  | n + 1, a, h => by
    have ih := memRead_eq m hp n (a + 1) (by omega)
    simp only [memRead, tblByte_eq m hp (show a < p.tblBytes by omega), ih, List.range'_succ, List.map_cons, leNumber]

/-- `MemRead` has no value where the last of its addresses does not exist. -/
theorem memRead_eq_none {p : Params} (m : Memory) :
    ∀ (n a : Nat), p.tblBytes < a + n → 0 < n → memRead p m a n = none
  | n + 1, a, h, _ => by
    unfold memRead tblByte
    by_cases h1 : a < p.tblBytes
    · have ih := memRead_eq_none (p := p) m n (a + 1) (by omega) (by omega)
      simp only [h1, if_true, ih]
    · simp only [h1, if_false]

end Sys2Proof.Machine
end

