-- ==== Sys2Proof/Laws/State.lean ====
section
/-! SUPPORT. One lemma per field per named update of the state, each true by rfl, so that no later proof unfolds an update. -/

namespace Sys2Proof.Machine

variable (s : State)

/-! `State.setRc`. -/

@[simp] theorem setRc_rc (code : ResultCode) : (s.setRc code).rc = code := rfl
@[simp] theorem setRc_event (code : ResultCode) : (s.setRc code).event = s.event := rfl
@[simp] theorem setRc_crcAcc (code : ResultCode) : (s.setRc code).crcAcc = s.crcAcc := rfl
@[simp] theorem setRc_rxState (code : ResultCode) : (s.setRc code).rxState = s.rxState := rfl
@[simp] theorem setRc_rxCmd (code : ResultCode) : (s.setRc code).rxCmd = s.rxCmd := rfl
@[simp] theorem setRc_rxLen (code : ResultCode) : (s.setRc code).rxLen = s.rxLen := rfl
@[simp] theorem setRc_rxIdx (code : ResultCode) : (s.setRc code).rxIdx = s.rxIdx := rfl
@[simp] theorem setRc_rxCrcRx (code : ResultCode) : (s.setRc code).rxCrcRx = s.rxCrcRx := rfl
@[simp] theorem setRc_rxCrcCalc (code : ResultCode) : (s.setRc code).rxCrcCalc = s.rxCrcCalc := rfl
@[simp] theorem setRc_rxBuf (code : ResultCode) : (s.setRc code).rxBuf = s.rxBuf := rfl
@[simp] theorem setRc_rxEvt (code : ResultCode) : (s.setRc code).rxEvt = s.rxEvt := rfl
@[simp] theorem setRc_rxFv (code : ResultCode) : (s.setRc code).rxFv = s.rxFv := rfl
@[simp] theorem setRc_txPl (code : ResultCode) : (s.setRc code).txPl = s.txPl := rfl
@[simp] theorem setRc_txBuf (code : ResultCode) : (s.setRc code).txBuf = s.txBuf := rfl
@[simp] theorem setRc_txLen (code : ResultCode) : (s.setRc code).txLen = s.txLen := rfl
@[simp] theorem setRc_medBuf (code : ResultCode) : (s.setRc code).medBuf = s.medBuf := rfl
@[simp] theorem setRc_medWr (code : ResultCode) : (s.setRc code).medWr = s.medWr := rfl
@[simp] theorem setRc_medCnt (code : ResultCode) : (s.setRc code).medCnt = s.medCnt := rfl
@[simp] theorem setRc_medOut (code : ResultCode) : (s.setRc code).medOut = s.medOut := rfl
@[simp] theorem setRc_mafWin (code : ResultCode) : (s.setRc code).mafWin = s.mafWin := rfl
@[simp] theorem setRc_mafWr (code : ResultCode) : (s.setRc code).mafWr = s.mafWr := rfl
@[simp] theorem setRc_mafCnt (code : ResultCode) : (s.setRc code).mafCnt = s.mafCnt := rfl
@[simp] theorem setRc_mafOut (code : ResultCode) : (s.setRc code).mafOut = s.mafOut := rfl
@[simp] theorem setRc_lutOk (code : ResultCode) : (s.setRc code).lutOk = s.lutOk := rfl
@[simp] theorem setRc_lutK (code : ResultCode) : (s.setRc code).lutK = s.lutK := rfl
@[simp] theorem setRc_lutC (code : ResultCode) : (s.setRc code).lutC = s.lutC := rfl
@[simp] theorem setRc_mapT4 (code : ResultCode) : (s.setRc code).mapT4 = s.mapT4 := rfl
@[simp] theorem setRc_mapT20 (code : ResultCode) : (s.setRc code).mapT20 = s.mapT20 := rfl
@[simp] theorem setRc_mapRes (code : ResultCode) : (s.setRc code).mapRes = s.mapRes := rfl
@[simp] theorem setRc_iOut (code : ResultCode) : (s.setRc code).iOut = s.iOut := rfl
@[simp] theorem setRc_tbl (code : ResultCode) : (s.setRc code).tbl = s.tbl := rfl
@[simp] theorem setRc_params (code : ResultCode) : (s.setRc code).params = s.params := rfl
@[simp] theorem setRc_inputs (code : ResultCode) : (s.setRc code).inputs = s.inputs := rfl
@[simp] theorem setRc_tblRace (code : ResultCode) : (s.setRc code).tblRace = s.tblRace := rfl
@[simp] theorem setRc_freeIdx (code : ResultCode) : (s.setRc code).freeIdx = s.freeIdx := rfl

/-! `State.emit`. -/

@[simp] theorem emit_rc (e : Event) : (s.emit e).rc = s.rc := rfl
@[simp] theorem emit_event (e : Event) : (s.emit e).event = e := rfl
@[simp] theorem emit_crcAcc (e : Event) : (s.emit e).crcAcc = s.crcAcc := rfl
@[simp] theorem emit_rxState (e : Event) : (s.emit e).rxState = s.rxState := rfl
@[simp] theorem emit_rxCmd (e : Event) : (s.emit e).rxCmd = s.rxCmd := rfl
@[simp] theorem emit_rxLen (e : Event) : (s.emit e).rxLen = s.rxLen := rfl
@[simp] theorem emit_rxIdx (e : Event) : (s.emit e).rxIdx = s.rxIdx := rfl
@[simp] theorem emit_rxCrcRx (e : Event) : (s.emit e).rxCrcRx = s.rxCrcRx := rfl
@[simp] theorem emit_rxCrcCalc (e : Event) : (s.emit e).rxCrcCalc = s.rxCrcCalc := rfl
@[simp] theorem emit_rxBuf (e : Event) : (s.emit e).rxBuf = s.rxBuf := rfl
@[simp] theorem emit_rxEvt (e : Event) : (s.emit e).rxEvt = s.rxEvt := rfl
@[simp] theorem emit_rxFv (e : Event) : (s.emit e).rxFv = s.rxFv := rfl
@[simp] theorem emit_txPl (e : Event) : (s.emit e).txPl = s.txPl := rfl
@[simp] theorem emit_txBuf (e : Event) : (s.emit e).txBuf = s.txBuf := rfl
@[simp] theorem emit_txLen (e : Event) : (s.emit e).txLen = s.txLen := rfl
@[simp] theorem emit_medBuf (e : Event) : (s.emit e).medBuf = s.medBuf := rfl
@[simp] theorem emit_medWr (e : Event) : (s.emit e).medWr = s.medWr := rfl
@[simp] theorem emit_medCnt (e : Event) : (s.emit e).medCnt = s.medCnt := rfl
@[simp] theorem emit_medOut (e : Event) : (s.emit e).medOut = s.medOut := rfl
@[simp] theorem emit_mafWin (e : Event) : (s.emit e).mafWin = s.mafWin := rfl
@[simp] theorem emit_mafWr (e : Event) : (s.emit e).mafWr = s.mafWr := rfl
@[simp] theorem emit_mafCnt (e : Event) : (s.emit e).mafCnt = s.mafCnt := rfl
@[simp] theorem emit_mafOut (e : Event) : (s.emit e).mafOut = s.mafOut := rfl
@[simp] theorem emit_lutOk (e : Event) : (s.emit e).lutOk = s.lutOk := rfl
@[simp] theorem emit_lutK (e : Event) : (s.emit e).lutK = s.lutK := rfl
@[simp] theorem emit_lutC (e : Event) : (s.emit e).lutC = s.lutC := rfl
@[simp] theorem emit_mapT4 (e : Event) : (s.emit e).mapT4 = s.mapT4 := rfl
@[simp] theorem emit_mapT20 (e : Event) : (s.emit e).mapT20 = s.mapT20 := rfl
@[simp] theorem emit_mapRes (e : Event) : (s.emit e).mapRes = s.mapRes := rfl
@[simp] theorem emit_iOut (e : Event) : (s.emit e).iOut = s.iOut := rfl
@[simp] theorem emit_tbl (e : Event) : (s.emit e).tbl = s.tbl := rfl
@[simp] theorem emit_params (e : Event) : (s.emit e).params = s.params := rfl
@[simp] theorem emit_inputs (e : Event) : (s.emit e).inputs = s.inputs := rfl
@[simp] theorem emit_tblRace (e : Event) : (s.emit e).tblRace = s.tblRace := rfl
@[simp] theorem emit_freeIdx (e : Event) : (s.emit e).freeIdx = s.freeIdx := rfl

/-! `State.endPulse`. -/

@[simp] theorem endPulse_rc : (s.endPulse).rc = s.rc := rfl
@[simp] theorem endPulse_event : (s.endPulse).event = .none := rfl
@[simp] theorem endPulse_crcAcc : (s.endPulse).crcAcc = s.crcAcc := rfl
@[simp] theorem endPulse_rxState : (s.endPulse).rxState = s.rxState := rfl
@[simp] theorem endPulse_rxCmd : (s.endPulse).rxCmd = s.rxCmd := rfl
@[simp] theorem endPulse_rxLen : (s.endPulse).rxLen = s.rxLen := rfl
@[simp] theorem endPulse_rxIdx : (s.endPulse).rxIdx = s.rxIdx := rfl
@[simp] theorem endPulse_rxCrcRx : (s.endPulse).rxCrcRx = s.rxCrcRx := rfl
@[simp] theorem endPulse_rxCrcCalc : (s.endPulse).rxCrcCalc = s.rxCrcCalc := rfl
@[simp] theorem endPulse_rxBuf : (s.endPulse).rxBuf = s.rxBuf := rfl
@[simp] theorem endPulse_rxEvt : (s.endPulse).rxEvt = s.rxEvt := rfl
@[simp] theorem endPulse_rxFv : (s.endPulse).rxFv = s.rxFv := rfl
@[simp] theorem endPulse_txPl : (s.endPulse).txPl = s.txPl := rfl
@[simp] theorem endPulse_txBuf : (s.endPulse).txBuf = s.txBuf := rfl
@[simp] theorem endPulse_txLen : (s.endPulse).txLen = s.txLen := rfl
@[simp] theorem endPulse_medBuf : (s.endPulse).medBuf = s.medBuf := rfl
@[simp] theorem endPulse_medWr : (s.endPulse).medWr = s.medWr := rfl
@[simp] theorem endPulse_medCnt : (s.endPulse).medCnt = s.medCnt := rfl
@[simp] theorem endPulse_medOut : (s.endPulse).medOut = s.medOut := rfl
@[simp] theorem endPulse_mafWin : (s.endPulse).mafWin = s.mafWin := rfl
@[simp] theorem endPulse_mafWr : (s.endPulse).mafWr = s.mafWr := rfl
@[simp] theorem endPulse_mafCnt : (s.endPulse).mafCnt = s.mafCnt := rfl
@[simp] theorem endPulse_mafOut : (s.endPulse).mafOut = s.mafOut := rfl
@[simp] theorem endPulse_lutOk : (s.endPulse).lutOk = s.lutOk := rfl
@[simp] theorem endPulse_lutK : (s.endPulse).lutK = s.lutK := rfl
@[simp] theorem endPulse_lutC : (s.endPulse).lutC = s.lutC := rfl
@[simp] theorem endPulse_mapT4 : (s.endPulse).mapT4 = s.mapT4 := rfl
@[simp] theorem endPulse_mapT20 : (s.endPulse).mapT20 = s.mapT20 := rfl
@[simp] theorem endPulse_mapRes : (s.endPulse).mapRes = s.mapRes := rfl
@[simp] theorem endPulse_iOut : (s.endPulse).iOut = s.iOut := rfl
@[simp] theorem endPulse_tbl : (s.endPulse).tbl = s.tbl := rfl
@[simp] theorem endPulse_params : (s.endPulse).params = s.params := rfl
@[simp] theorem endPulse_inputs : (s.endPulse).inputs = s.inputs := rfl
@[simp] theorem endPulse_tblRace : (s.endPulse).tblRace = s.tblRace := rfl
@[simp] theorem endPulse_freeIdx : (s.endPulse).freeIdx = s.freeIdx := rfl

/-! `State.illegalOp`. -/

@[simp] theorem illegalOp_rc : (s.illegalOp).rc = .illegalOp := rfl
@[simp] theorem illegalOp_event : (s.illegalOp).event = s.event := rfl
@[simp] theorem illegalOp_crcAcc : (s.illegalOp).crcAcc = s.crcAcc := rfl
@[simp] theorem illegalOp_rxState : (s.illegalOp).rxState = s.rxState := rfl
@[simp] theorem illegalOp_rxCmd : (s.illegalOp).rxCmd = s.rxCmd := rfl
@[simp] theorem illegalOp_rxLen : (s.illegalOp).rxLen = s.rxLen := rfl
@[simp] theorem illegalOp_rxIdx : (s.illegalOp).rxIdx = s.rxIdx := rfl
@[simp] theorem illegalOp_rxCrcRx : (s.illegalOp).rxCrcRx = s.rxCrcRx := rfl
@[simp] theorem illegalOp_rxCrcCalc : (s.illegalOp).rxCrcCalc = s.rxCrcCalc := rfl
@[simp] theorem illegalOp_rxBuf : (s.illegalOp).rxBuf = s.rxBuf := rfl
@[simp] theorem illegalOp_rxEvt : (s.illegalOp).rxEvt = s.rxEvt := rfl
@[simp] theorem illegalOp_rxFv : (s.illegalOp).rxFv = s.rxFv := rfl
@[simp] theorem illegalOp_txPl : (s.illegalOp).txPl = s.txPl := rfl
@[simp] theorem illegalOp_txBuf : (s.illegalOp).txBuf = s.txBuf := rfl
@[simp] theorem illegalOp_txLen : (s.illegalOp).txLen = s.txLen := rfl
@[simp] theorem illegalOp_medBuf : (s.illegalOp).medBuf = s.medBuf := rfl
@[simp] theorem illegalOp_medWr : (s.illegalOp).medWr = s.medWr := rfl
@[simp] theorem illegalOp_medCnt : (s.illegalOp).medCnt = s.medCnt := rfl
@[simp] theorem illegalOp_medOut : (s.illegalOp).medOut = s.medOut := rfl
@[simp] theorem illegalOp_mafWin : (s.illegalOp).mafWin = s.mafWin := rfl
@[simp] theorem illegalOp_mafWr : (s.illegalOp).mafWr = s.mafWr := rfl
@[simp] theorem illegalOp_mafCnt : (s.illegalOp).mafCnt = s.mafCnt := rfl
@[simp] theorem illegalOp_mafOut : (s.illegalOp).mafOut = s.mafOut := rfl
@[simp] theorem illegalOp_lutOk : (s.illegalOp).lutOk = s.lutOk := rfl
@[simp] theorem illegalOp_lutK : (s.illegalOp).lutK = s.lutK := rfl
@[simp] theorem illegalOp_lutC : (s.illegalOp).lutC = s.lutC := rfl
@[simp] theorem illegalOp_mapT4 : (s.illegalOp).mapT4 = s.mapT4 := rfl
@[simp] theorem illegalOp_mapT20 : (s.illegalOp).mapT20 = s.mapT20 := rfl
@[simp] theorem illegalOp_mapRes : (s.illegalOp).mapRes = s.mapRes := rfl
@[simp] theorem illegalOp_iOut : (s.illegalOp).iOut = s.iOut := rfl
@[simp] theorem illegalOp_tbl : (s.illegalOp).tbl = s.tbl := rfl
@[simp] theorem illegalOp_params : (s.illegalOp).params = s.params := rfl
@[simp] theorem illegalOp_inputs : (s.illegalOp).inputs = s.inputs := rfl
@[simp] theorem illegalOp_tblRace : (s.illegalOp).tblRace = s.tblRace := rfl
@[simp] theorem illegalOp_freeIdx : (s.illegalOp).freeIdx = s.freeIdx := rfl

/-! `State.emitFrame`. -/

@[simp] theorem emitFrame_rc (cmd : Byte) (p : List Byte) : (s.emitFrame cmd p).rc = s.rc := rfl
@[simp] theorem emitFrame_event (cmd : Byte) (p : List Byte) : (s.emitFrame cmd p).event = .txReady (BitVec.ofNat 9 (buildFrame cmd p).length) := rfl
@[simp] theorem emitFrame_crcAcc (cmd : Byte) (p : List Byte) : (s.emitFrame cmd p).crcAcc = s.crcAcc := rfl
@[simp] theorem emitFrame_rxState (cmd : Byte) (p : List Byte) : (s.emitFrame cmd p).rxState = s.rxState := rfl
@[simp] theorem emitFrame_rxCmd (cmd : Byte) (p : List Byte) : (s.emitFrame cmd p).rxCmd = s.rxCmd := rfl
@[simp] theorem emitFrame_rxLen (cmd : Byte) (p : List Byte) : (s.emitFrame cmd p).rxLen = s.rxLen := rfl
@[simp] theorem emitFrame_rxIdx (cmd : Byte) (p : List Byte) : (s.emitFrame cmd p).rxIdx = s.rxIdx := rfl
@[simp] theorem emitFrame_rxCrcRx (cmd : Byte) (p : List Byte) : (s.emitFrame cmd p).rxCrcRx = s.rxCrcRx := rfl
@[simp] theorem emitFrame_rxCrcCalc (cmd : Byte) (p : List Byte) : (s.emitFrame cmd p).rxCrcCalc = s.rxCrcCalc := rfl
@[simp] theorem emitFrame_rxBuf (cmd : Byte) (p : List Byte) : (s.emitFrame cmd p).rxBuf = s.rxBuf := rfl
@[simp] theorem emitFrame_rxEvt (cmd : Byte) (p : List Byte) : (s.emitFrame cmd p).rxEvt = s.rxEvt := rfl
@[simp] theorem emitFrame_rxFv (cmd : Byte) (p : List Byte) : (s.emitFrame cmd p).rxFv = s.rxFv := rfl
@[simp] theorem emitFrame_txPl (cmd : Byte) (p : List Byte) : (s.emitFrame cmd p).txPl = s.txPl := rfl
@[simp] theorem emitFrame_txBuf (cmd : Byte) (p : List Byte) : (s.emitFrame cmd p).txBuf = writeFrameFrom s.txBuf 0 (buildFrame cmd p) := rfl
@[simp] theorem emitFrame_txLen (cmd : Byte) (p : List Byte) : (s.emitFrame cmd p).txLen = BitVec.ofNat 9 (buildFrame cmd p).length := rfl
@[simp] theorem emitFrame_medBuf (cmd : Byte) (p : List Byte) : (s.emitFrame cmd p).medBuf = s.medBuf := rfl
@[simp] theorem emitFrame_medWr (cmd : Byte) (p : List Byte) : (s.emitFrame cmd p).medWr = s.medWr := rfl
@[simp] theorem emitFrame_medCnt (cmd : Byte) (p : List Byte) : (s.emitFrame cmd p).medCnt = s.medCnt := rfl
@[simp] theorem emitFrame_medOut (cmd : Byte) (p : List Byte) : (s.emitFrame cmd p).medOut = s.medOut := rfl
@[simp] theorem emitFrame_mafWin (cmd : Byte) (p : List Byte) : (s.emitFrame cmd p).mafWin = s.mafWin := rfl
@[simp] theorem emitFrame_mafWr (cmd : Byte) (p : List Byte) : (s.emitFrame cmd p).mafWr = s.mafWr := rfl
@[simp] theorem emitFrame_mafCnt (cmd : Byte) (p : List Byte) : (s.emitFrame cmd p).mafCnt = s.mafCnt := rfl
@[simp] theorem emitFrame_mafOut (cmd : Byte) (p : List Byte) : (s.emitFrame cmd p).mafOut = s.mafOut := rfl
@[simp] theorem emitFrame_lutOk (cmd : Byte) (p : List Byte) : (s.emitFrame cmd p).lutOk = s.lutOk := rfl
@[simp] theorem emitFrame_lutK (cmd : Byte) (p : List Byte) : (s.emitFrame cmd p).lutK = s.lutK := rfl
@[simp] theorem emitFrame_lutC (cmd : Byte) (p : List Byte) : (s.emitFrame cmd p).lutC = s.lutC := rfl
@[simp] theorem emitFrame_mapT4 (cmd : Byte) (p : List Byte) : (s.emitFrame cmd p).mapT4 = s.mapT4 := rfl
@[simp] theorem emitFrame_mapT20 (cmd : Byte) (p : List Byte) : (s.emitFrame cmd p).mapT20 = s.mapT20 := rfl
@[simp] theorem emitFrame_mapRes (cmd : Byte) (p : List Byte) : (s.emitFrame cmd p).mapRes = s.mapRes := rfl
@[simp] theorem emitFrame_iOut (cmd : Byte) (p : List Byte) : (s.emitFrame cmd p).iOut = s.iOut := rfl
@[simp] theorem emitFrame_tbl (cmd : Byte) (p : List Byte) : (s.emitFrame cmd p).tbl = s.tbl := rfl
@[simp] theorem emitFrame_params (cmd : Byte) (p : List Byte) : (s.emitFrame cmd p).params = s.params := rfl
@[simp] theorem emitFrame_inputs (cmd : Byte) (p : List Byte) : (s.emitFrame cmd p).inputs = s.inputs := rfl
@[simp] theorem emitFrame_tblRace (cmd : Byte) (p : List Byte) : (s.emitFrame cmd p).tblRace = s.tblRace := rfl
@[simp] theorem emitFrame_freeIdx (cmd : Byte) (p : List Byte) : (s.emitFrame cmd p).freeIdx = s.freeIdx := rfl

/-! `State.pushMean`. -/

@[simp] theorem pushMean_rc (x : B32) : (s.pushMean x).rc = s.rc := rfl
@[simp] theorem pushMean_event (x : B32) : (s.pushMean x).event = s.event := rfl
@[simp] theorem pushMean_crcAcc (x : B32) : (s.pushMean x).crcAcc = s.crcAcc := rfl
@[simp] theorem pushMean_rxState (x : B32) : (s.pushMean x).rxState = s.rxState := rfl
@[simp] theorem pushMean_rxCmd (x : B32) : (s.pushMean x).rxCmd = s.rxCmd := rfl
@[simp] theorem pushMean_rxLen (x : B32) : (s.pushMean x).rxLen = s.rxLen := rfl
@[simp] theorem pushMean_rxIdx (x : B32) : (s.pushMean x).rxIdx = s.rxIdx := rfl
@[simp] theorem pushMean_rxCrcRx (x : B32) : (s.pushMean x).rxCrcRx = s.rxCrcRx := rfl
@[simp] theorem pushMean_rxCrcCalc (x : B32) : (s.pushMean x).rxCrcCalc = s.rxCrcCalc := rfl
@[simp] theorem pushMean_rxBuf (x : B32) : (s.pushMean x).rxBuf = s.rxBuf := rfl
@[simp] theorem pushMean_rxEvt (x : B32) : (s.pushMean x).rxEvt = s.rxEvt := rfl
@[simp] theorem pushMean_rxFv (x : B32) : (s.pushMean x).rxFv = s.rxFv := rfl
@[simp] theorem pushMean_txPl (x : B32) : (s.pushMean x).txPl = s.txPl := rfl
@[simp] theorem pushMean_txBuf (x : B32) : (s.pushMean x).txBuf = s.txBuf := rfl
@[simp] theorem pushMean_txLen (x : B32) : (s.pushMean x).txLen = s.txLen := rfl
@[simp] theorem pushMean_medBuf (x : B32) : (s.pushMean x).medBuf = s.medBuf := rfl
@[simp] theorem pushMean_medWr (x : B32) : (s.pushMean x).medWr = s.medWr := rfl
@[simp] theorem pushMean_medCnt (x : B32) : (s.pushMean x).medCnt = s.medCnt := rfl
@[simp] theorem pushMean_medOut (x : B32) : (s.pushMean x).medOut = s.medOut := rfl
@[simp] theorem pushMean_mafWin (x : B32) : (s.pushMean x).mafWin = s.mafWin.set s.mafWr.val x s.mafWr.isLt := rfl
@[simp] theorem pushMean_mafWr (x : B32) : (s.pushMean x).mafWr = Fin.ofNat 16 (s.mafWr.val + 1) := rfl
@[simp] theorem pushMean_mafCnt (x : B32) : (s.pushMean x).mafCnt = Fin.ofNat 17 (min (s.mafCnt.val + 1) 16) := rfl
@[simp] theorem pushMean_mafOut (x : B32) : (s.pushMean x).mafOut = mean (mafEntries (s.mafWin.set s.mafWr.val x s.mafWr.isLt) (Fin.ofNat 17 (min (s.mafCnt.val + 1) 16))) := rfl
@[simp] theorem pushMean_lutOk (x : B32) : (s.pushMean x).lutOk = s.lutOk := rfl
@[simp] theorem pushMean_lutK (x : B32) : (s.pushMean x).lutK = s.lutK := rfl
@[simp] theorem pushMean_lutC (x : B32) : (s.pushMean x).lutC = s.lutC := rfl
@[simp] theorem pushMean_mapT4 (x : B32) : (s.pushMean x).mapT4 = s.mapT4 := rfl
@[simp] theorem pushMean_mapT20 (x : B32) : (s.pushMean x).mapT20 = s.mapT20 := rfl
@[simp] theorem pushMean_mapRes (x : B32) : (s.pushMean x).mapRes = s.mapRes := rfl
@[simp] theorem pushMean_iOut (x : B32) : (s.pushMean x).iOut = s.iOut := rfl
@[simp] theorem pushMean_tbl (x : B32) : (s.pushMean x).tbl = s.tbl := rfl
@[simp] theorem pushMean_params (x : B32) : (s.pushMean x).params = s.params := rfl
@[simp] theorem pushMean_inputs (x : B32) : (s.pushMean x).inputs = s.inputs := rfl
@[simp] theorem pushMean_tblRace (x : B32) : (s.pushMean x).tblRace = s.tblRace := rfl
@[simp] theorem pushMean_freeIdx (x : B32) : (s.pushMean x).freeIdx = s.freeIdx := rfl

/-! `State.setLookup`. -/

@[simp] theorem setLookup_rc (ok : Bool) (k : B32) : (s.setLookup ok k).rc = if ok then .ok else .tblInvalid := rfl
@[simp] theorem setLookup_event (ok : Bool) (k : B32) : (s.setLookup ok k).event = s.event := rfl
@[simp] theorem setLookup_crcAcc (ok : Bool) (k : B32) : (s.setLookup ok k).crcAcc = s.crcAcc := rfl
@[simp] theorem setLookup_rxState (ok : Bool) (k : B32) : (s.setLookup ok k).rxState = s.rxState := rfl
@[simp] theorem setLookup_rxCmd (ok : Bool) (k : B32) : (s.setLookup ok k).rxCmd = s.rxCmd := rfl
@[simp] theorem setLookup_rxLen (ok : Bool) (k : B32) : (s.setLookup ok k).rxLen = s.rxLen := rfl
@[simp] theorem setLookup_rxIdx (ok : Bool) (k : B32) : (s.setLookup ok k).rxIdx = s.rxIdx := rfl
@[simp] theorem setLookup_rxCrcRx (ok : Bool) (k : B32) : (s.setLookup ok k).rxCrcRx = s.rxCrcRx := rfl
@[simp] theorem setLookup_rxCrcCalc (ok : Bool) (k : B32) : (s.setLookup ok k).rxCrcCalc = s.rxCrcCalc := rfl
@[simp] theorem setLookup_rxBuf (ok : Bool) (k : B32) : (s.setLookup ok k).rxBuf = s.rxBuf := rfl
@[simp] theorem setLookup_rxEvt (ok : Bool) (k : B32) : (s.setLookup ok k).rxEvt = s.rxEvt := rfl
@[simp] theorem setLookup_rxFv (ok : Bool) (k : B32) : (s.setLookup ok k).rxFv = s.rxFv := rfl
@[simp] theorem setLookup_txPl (ok : Bool) (k : B32) : (s.setLookup ok k).txPl = s.txPl := rfl
@[simp] theorem setLookup_txBuf (ok : Bool) (k : B32) : (s.setLookup ok k).txBuf = s.txBuf := rfl
@[simp] theorem setLookup_txLen (ok : Bool) (k : B32) : (s.setLookup ok k).txLen = s.txLen := rfl
@[simp] theorem setLookup_medBuf (ok : Bool) (k : B32) : (s.setLookup ok k).medBuf = s.medBuf := rfl
@[simp] theorem setLookup_medWr (ok : Bool) (k : B32) : (s.setLookup ok k).medWr = s.medWr := rfl
@[simp] theorem setLookup_medCnt (ok : Bool) (k : B32) : (s.setLookup ok k).medCnt = s.medCnt := rfl
@[simp] theorem setLookup_medOut (ok : Bool) (k : B32) : (s.setLookup ok k).medOut = s.medOut := rfl
@[simp] theorem setLookup_mafWin (ok : Bool) (k : B32) : (s.setLookup ok k).mafWin = s.mafWin := rfl
@[simp] theorem setLookup_mafWr (ok : Bool) (k : B32) : (s.setLookup ok k).mafWr = s.mafWr := rfl
@[simp] theorem setLookup_mafCnt (ok : Bool) (k : B32) : (s.setLookup ok k).mafCnt = s.mafCnt := rfl
@[simp] theorem setLookup_mafOut (ok : Bool) (k : B32) : (s.setLookup ok k).mafOut = s.mafOut := rfl
@[simp] theorem setLookup_lutOk (ok : Bool) (k : B32) : (s.setLookup ok k).lutOk = ok := rfl
@[simp] theorem setLookup_lutK (ok : Bool) (k : B32) : (s.setLookup ok k).lutK = k := rfl
@[simp] theorem setLookup_lutC (ok : Bool) (k : B32) : (s.setLookup ok k).lutC = k2c k := rfl
@[simp] theorem setLookup_mapT4 (ok : Bool) (k : B32) : (s.setLookup ok k).mapT4 = s.mapT4 := rfl
@[simp] theorem setLookup_mapT20 (ok : Bool) (k : B32) : (s.setLookup ok k).mapT20 = s.mapT20 := rfl
@[simp] theorem setLookup_mapRes (ok : Bool) (k : B32) : (s.setLookup ok k).mapRes = s.mapRes := rfl
@[simp] theorem setLookup_iOut (ok : Bool) (k : B32) : (s.setLookup ok k).iOut = s.iOut := rfl
@[simp] theorem setLookup_tbl (ok : Bool) (k : B32) : (s.setLookup ok k).tbl = s.tbl := rfl
@[simp] theorem setLookup_params (ok : Bool) (k : B32) : (s.setLookup ok k).params = s.params := rfl
@[simp] theorem setLookup_inputs (ok : Bool) (k : B32) : (s.setLookup ok k).inputs = s.inputs := rfl
@[simp] theorem setLookup_tblRace (ok : Bool) (k : B32) : (s.setLookup ok k).tblRace = s.tblRace := rfl
@[simp] theorem setLookup_freeIdx (ok : Bool) (k : B32) : (s.setLookup ok k).freeIdx = s.freeIdx := rfl

/-! `State.driveCurrent`. -/

@[simp] theorem driveCurrent_rc (x : B32) : (s.driveCurrent x).rc = s.rc := rfl
@[simp] theorem driveCurrent_event (x : B32) : (s.driveCurrent x).event = .ioutUpdate x := rfl
@[simp] theorem driveCurrent_crcAcc (x : B32) : (s.driveCurrent x).crcAcc = s.crcAcc := rfl
@[simp] theorem driveCurrent_rxState (x : B32) : (s.driveCurrent x).rxState = s.rxState := rfl
@[simp] theorem driveCurrent_rxCmd (x : B32) : (s.driveCurrent x).rxCmd = s.rxCmd := rfl
@[simp] theorem driveCurrent_rxLen (x : B32) : (s.driveCurrent x).rxLen = s.rxLen := rfl
@[simp] theorem driveCurrent_rxIdx (x : B32) : (s.driveCurrent x).rxIdx = s.rxIdx := rfl
@[simp] theorem driveCurrent_rxCrcRx (x : B32) : (s.driveCurrent x).rxCrcRx = s.rxCrcRx := rfl
@[simp] theorem driveCurrent_rxCrcCalc (x : B32) : (s.driveCurrent x).rxCrcCalc = s.rxCrcCalc := rfl
@[simp] theorem driveCurrent_rxBuf (x : B32) : (s.driveCurrent x).rxBuf = s.rxBuf := rfl
@[simp] theorem driveCurrent_rxEvt (x : B32) : (s.driveCurrent x).rxEvt = s.rxEvt := rfl
@[simp] theorem driveCurrent_rxFv (x : B32) : (s.driveCurrent x).rxFv = s.rxFv := rfl
@[simp] theorem driveCurrent_txPl (x : B32) : (s.driveCurrent x).txPl = s.txPl := rfl
@[simp] theorem driveCurrent_txBuf (x : B32) : (s.driveCurrent x).txBuf = s.txBuf := rfl
@[simp] theorem driveCurrent_txLen (x : B32) : (s.driveCurrent x).txLen = s.txLen := rfl
@[simp] theorem driveCurrent_medBuf (x : B32) : (s.driveCurrent x).medBuf = s.medBuf := rfl
@[simp] theorem driveCurrent_medWr (x : B32) : (s.driveCurrent x).medWr = s.medWr := rfl
@[simp] theorem driveCurrent_medCnt (x : B32) : (s.driveCurrent x).medCnt = s.medCnt := rfl
@[simp] theorem driveCurrent_medOut (x : B32) : (s.driveCurrent x).medOut = s.medOut := rfl
@[simp] theorem driveCurrent_mafWin (x : B32) : (s.driveCurrent x).mafWin = s.mafWin := rfl
@[simp] theorem driveCurrent_mafWr (x : B32) : (s.driveCurrent x).mafWr = s.mafWr := rfl
@[simp] theorem driveCurrent_mafCnt (x : B32) : (s.driveCurrent x).mafCnt = s.mafCnt := rfl
@[simp] theorem driveCurrent_mafOut (x : B32) : (s.driveCurrent x).mafOut = s.mafOut := rfl
@[simp] theorem driveCurrent_lutOk (x : B32) : (s.driveCurrent x).lutOk = s.lutOk := rfl
@[simp] theorem driveCurrent_lutK (x : B32) : (s.driveCurrent x).lutK = s.lutK := rfl
@[simp] theorem driveCurrent_lutC (x : B32) : (s.driveCurrent x).lutC = s.lutC := rfl
@[simp] theorem driveCurrent_mapT4 (x : B32) : (s.driveCurrent x).mapT4 = s.mapT4 := rfl
@[simp] theorem driveCurrent_mapT20 (x : B32) : (s.driveCurrent x).mapT20 = s.mapT20 := rfl
@[simp] theorem driveCurrent_mapRes (x : B32) : (s.driveCurrent x).mapRes = s.mapRes := rfl
@[simp] theorem driveCurrent_iOut (x : B32) : (s.driveCurrent x).iOut = x := rfl
@[simp] theorem driveCurrent_tbl (x : B32) : (s.driveCurrent x).tbl = s.tbl := rfl
@[simp] theorem driveCurrent_params (x : B32) : (s.driveCurrent x).params = s.params := rfl
@[simp] theorem driveCurrent_inputs (x : B32) : (s.driveCurrent x).inputs = s.inputs := rfl
@[simp] theorem driveCurrent_tblRace (x : B32) : (s.driveCurrent x).tblRace = s.tblRace := rfl
@[simp] theorem driveCurrent_freeIdx (x : B32) : (s.driveCurrent x).freeIdx = s.freeIdx := rfl

/-! `State.lutRace`. -/

@[simp] theorem lutRace_rc : (s.lutRace).rc = if Config.freeBit (s.freeIdx + 1) then .ok else .tblInvalid := rfl
@[simp] theorem lutRace_event : (s.lutRace).event = s.event := rfl
@[simp] theorem lutRace_crcAcc : (s.lutRace).crcAcc = s.crcAcc := rfl
@[simp] theorem lutRace_rxState : (s.lutRace).rxState = s.rxState := rfl
@[simp] theorem lutRace_rxCmd : (s.lutRace).rxCmd = s.rxCmd := rfl
@[simp] theorem lutRace_rxLen : (s.lutRace).rxLen = s.rxLen := rfl
@[simp] theorem lutRace_rxIdx : (s.lutRace).rxIdx = s.rxIdx := rfl
@[simp] theorem lutRace_rxCrcRx : (s.lutRace).rxCrcRx = s.rxCrcRx := rfl
@[simp] theorem lutRace_rxCrcCalc : (s.lutRace).rxCrcCalc = s.rxCrcCalc := rfl
@[simp] theorem lutRace_rxBuf : (s.lutRace).rxBuf = s.rxBuf := rfl
@[simp] theorem lutRace_rxEvt : (s.lutRace).rxEvt = s.rxEvt := rfl
@[simp] theorem lutRace_rxFv : (s.lutRace).rxFv = s.rxFv := rfl
@[simp] theorem lutRace_txPl : (s.lutRace).txPl = s.txPl := rfl
@[simp] theorem lutRace_txBuf : (s.lutRace).txBuf = s.txBuf := rfl
@[simp] theorem lutRace_txLen : (s.lutRace).txLen = s.txLen := rfl
@[simp] theorem lutRace_medBuf : (s.lutRace).medBuf = s.medBuf := rfl
@[simp] theorem lutRace_medWr : (s.lutRace).medWr = s.medWr := rfl
@[simp] theorem lutRace_medCnt : (s.lutRace).medCnt = s.medCnt := rfl
@[simp] theorem lutRace_medOut : (s.lutRace).medOut = s.medOut := rfl
@[simp] theorem lutRace_mafWin : (s.lutRace).mafWin = s.mafWin := rfl
@[simp] theorem lutRace_mafWr : (s.lutRace).mafWr = s.mafWr := rfl
@[simp] theorem lutRace_mafCnt : (s.lutRace).mafCnt = s.mafCnt := rfl
@[simp] theorem lutRace_mafOut : (s.lutRace).mafOut = s.mafOut := rfl
@[simp] theorem lutRace_lutOk : (s.lutRace).lutOk = Config.freeBit s.freeIdx := rfl
@[simp] theorem lutRace_lutK : (s.lutRace).lutK = Config.freeWord s.freeIdx := rfl
@[simp] theorem lutRace_lutC : (s.lutRace).lutC = Config.freeWord (s.freeIdx + 1) := rfl
@[simp] theorem lutRace_mapT4 : (s.lutRace).mapT4 = s.mapT4 := rfl
@[simp] theorem lutRace_mapT20 : (s.lutRace).mapT20 = s.mapT20 := rfl
@[simp] theorem lutRace_mapRes : (s.lutRace).mapRes = s.mapRes := rfl
@[simp] theorem lutRace_iOut : (s.lutRace).iOut = s.iOut := rfl
@[simp] theorem lutRace_tbl : (s.lutRace).tbl = s.tbl := rfl
@[simp] theorem lutRace_params : (s.lutRace).params = s.params := rfl
@[simp] theorem lutRace_inputs : (s.lutRace).inputs = s.inputs := rfl
@[simp] theorem lutRace_tblRace : (s.lutRace).tblRace = s.tblRace := rfl
@[simp] theorem lutRace_freeIdx : (s.lutRace).freeIdx = s.freeIdx + 2 := rfl

/-! `State.applyReset`. -/

@[simp] theorem applyReset_rc : (s.applyReset).rc = State.reset.rc := rfl
@[simp] theorem applyReset_event : (s.applyReset).event = State.reset.event := rfl
@[simp] theorem applyReset_crcAcc : (s.applyReset).crcAcc = State.reset.crcAcc := rfl
@[simp] theorem applyReset_rxState : (s.applyReset).rxState = State.reset.rxState := rfl
@[simp] theorem applyReset_rxCmd : (s.applyReset).rxCmd = State.reset.rxCmd := rfl
@[simp] theorem applyReset_rxLen : (s.applyReset).rxLen = State.reset.rxLen := rfl
@[simp] theorem applyReset_rxIdx : (s.applyReset).rxIdx = State.reset.rxIdx := rfl
@[simp] theorem applyReset_rxCrcRx : (s.applyReset).rxCrcRx = State.reset.rxCrcRx := rfl
@[simp] theorem applyReset_rxCrcCalc : (s.applyReset).rxCrcCalc = State.reset.rxCrcCalc := rfl
@[simp] theorem applyReset_rxBuf : (s.applyReset).rxBuf = State.reset.rxBuf := rfl
@[simp] theorem applyReset_rxEvt : (s.applyReset).rxEvt = State.reset.rxEvt := rfl
@[simp] theorem applyReset_rxFv : (s.applyReset).rxFv = State.reset.rxFv := rfl
@[simp] theorem applyReset_txPl : (s.applyReset).txPl = State.reset.txPl := rfl
@[simp] theorem applyReset_txBuf : (s.applyReset).txBuf = State.reset.txBuf := rfl
@[simp] theorem applyReset_txLen : (s.applyReset).txLen = State.reset.txLen := rfl
@[simp] theorem applyReset_medBuf : (s.applyReset).medBuf = State.reset.medBuf := rfl
@[simp] theorem applyReset_medWr : (s.applyReset).medWr = State.reset.medWr := rfl
@[simp] theorem applyReset_medCnt : (s.applyReset).medCnt = State.reset.medCnt := rfl
@[simp] theorem applyReset_medOut : (s.applyReset).medOut = State.reset.medOut := rfl
@[simp] theorem applyReset_mafWin : (s.applyReset).mafWin = State.reset.mafWin := rfl
@[simp] theorem applyReset_mafWr : (s.applyReset).mafWr = State.reset.mafWr := rfl
@[simp] theorem applyReset_mafCnt : (s.applyReset).mafCnt = State.reset.mafCnt := rfl
@[simp] theorem applyReset_mafOut : (s.applyReset).mafOut = State.reset.mafOut := rfl
@[simp] theorem applyReset_lutOk : (s.applyReset).lutOk = State.reset.lutOk := rfl
@[simp] theorem applyReset_lutK : (s.applyReset).lutK = State.reset.lutK := rfl
@[simp] theorem applyReset_lutC : (s.applyReset).lutC = State.reset.lutC := rfl
@[simp] theorem applyReset_mapT4 : (s.applyReset).mapT4 = State.reset.mapT4 := rfl
@[simp] theorem applyReset_mapT20 : (s.applyReset).mapT20 = State.reset.mapT20 := rfl
@[simp] theorem applyReset_mapRes : (s.applyReset).mapRes = State.reset.mapRes := rfl
@[simp] theorem applyReset_iOut : (s.applyReset).iOut = State.reset.iOut := rfl
@[simp] theorem applyReset_tbl : (s.applyReset).tbl = s.tbl := rfl
@[simp] theorem applyReset_params : (s.applyReset).params = s.params := rfl
@[simp] theorem applyReset_inputs : (s.applyReset).inputs = s.inputs := rfl
@[simp] theorem applyReset_tblRace : (s.applyReset).tblRace = State.reset.tblRace := rfl
@[simp] theorem applyReset_freeIdx : (s.applyReset).freeIdx = s.freeIdx := rfl

end Sys2Proof.Machine
end

