-- ==== Sys2Proof/Laws/Ops.lean ====
section
/-! SUPPORT. What each shared operation can do, said once. -/

namespace Sys2Proof.Machine

/-- A frame is six bytes longer than its payload (R130, R133). -/
theorem buildFrame_length (cmd : Byte) (p : List Byte) : (buildFrame cmd p).length = p.length + 6 := by
  simp [buildFrame, frameBody, le16]

/-- Writing a frame from entry `k` on changes the entries from `k` up to its length, and no other. -/
theorem writeFrameFrom_getElem (f : List Byte) : ∀ (buf : Vector Byte 261) (k j : Nat) (h : j < 261),
    (writeFrameFrom buf k f)[j] = if k ≤ j ∧ j < k + f.length then f.getD (j - k) 0 else buf[j] := by
  induction f with
  | nil =>
    intro buf k j h
    have : ¬ (k ≤ j ∧ j < k) := by omega
    simp [writeFrameFrom, this]
  | cons b rest ih =>
    intro buf k j h
    rw [writeFrameFrom, ih, Vector.getElem_setIfInBounds h]
    simp only [List.length_cons]
    rcases lt_trichotomy j k with hj | rfl | hj
    · have h1 : ¬ (k + 1 ≤ j ∧ j < k + 1 + rest.length) := by omega
      have h2 : ¬ (k ≤ j ∧ j < k + (rest.length + 1)) := by omega
      have h3 : k ≠ j := by omega
      simp only [h1, h2, h3, if_false]
    · have h1 : ¬ (j + 1 ≤ j ∧ j < j + 1 + rest.length) := by omega
      have h2 : j ≤ j ∧ j < j + (rest.length + 1) := by omega
      rw [if_neg h1, if_pos rfl, if_pos h2]
      simp
    · obtain ⟨d, rfl⟩ : ∃ d, j = k + 1 + d := ⟨j - k - 1, by omega⟩
      have h3 : k ≠ k + 1 + d := by omega
      have e1 : k + 1 + d - (k + 1) = d := by omega
      have e2 : k + 1 + d - k = d + 1 := by omega
      simp only [h3, if_false, e1, e2, List.getD_cons_succ]
      have h4 : (k + 1 ≤ k + 1 + d ∧ k + 1 + d < k + 1 + rest.length) ↔
          (k ≤ k + 1 + d ∧ k + 1 + d < k + (rest.length + 1)) := by omega
      simp only [h4]

/-- A frame written to `tx_buf` (R240): its bytes, then the old entries. -/
theorem emitFrame_txBuf_getElem (s : State) (cmd : Byte) (p : List Byte) (j : Nat) (h : j < 261) :
    (s.emitFrame cmd p).txBuf[j] = if j < p.length + 6 then (buildFrame cmd p).getD j 0 else s.txBuf[j] := by
  simp only [emitFrame_txBuf]
  rw [writeFrameFrom_getElem]
  simp [buildFrame_length]

/-- The writer's bytes as a step of the state: the table alone changes. -/
theorem writeTable_next {cs : List Host.Cell} {s t : State} (h : writeTable cs s = .next t) :
    ∃ m, applyWrites s.params s.tbl cs = some m ∧ t = { s with tbl := m } := by
  unfold writeTable at h
  split at h
  · rename_i m hm
    cases h
    exact ⟨m, hm, rfl⟩
  · cases h

/-- The search of R333 narrows a window to an adjacent pair inside it, if the voltages inside it can be read and it has turns
enough; a pair it returns lies in the window. -/
theorem searchPair_within {p : Params} {m : Memory} {v : B32} : ∀ {turns lo hi a b : Nat},
    searchPair p m v turns lo hi = some (a, b) → lo < hi → lo ≤ a ∧ a < b ∧ b ≤ hi
  | 0, lo, hi, a, b, h, hl => by
    simp only [searchPair, Option.some.injEq, Prod.mk.injEq] at h
    omega
  | turns + 1, lo, hi, a, b, h, hl => by
    unfold searchPair at h
    split at h
    · rename_i hgap
      simp only at h
      split at h
      · cases h
      · split at h
        · have := searchPair_within h (by omega)
          omega
        · have := searchPair_within h (by omega)
          omega
    · simp only [Option.some.injEq, Prod.mk.injEq] at h
      omega

end Sys2Proof.Machine
end

