-- ==== Sys2Proof/Laws/PerInstr.lean ====
section
/-! SUPPORT. A statement for every op as syntax: its encoding is a well-formed bundle (30_encoding.md R140: "Fields not named
in the encoding column are zero"). One lemma per constructor. -/

namespace Sys2Proof.Laws.CanonicalEncoding

/-- The bundle the encoder writes has an assigned op code and zeros in every field the op does not read. -/
def Statement (i : Instr) : Prop := (encode i).wellFormed = true

/-- Fields above the low part of an append are fields of the high part. -/
theorem extract_high {m n : Nat} (x : BitVec m) (y : BitVec n) (k len : Nat) :
    (x ++ y).extractLsb' (n + k) len = x.extractLsb' k len := by
  ext j hj
  simp only [BitVec.getElem_extractLsb', BitVec.getLsbD_append]
  rw [if_neg (by omega)]
  congr 1
  omega

theorem opField_pack (op imm : Byte) (a b c : B32) : opField (packBundle op imm a b c) = op :=
  BitVec.extractLsb'_append_eq_right

theorem immField_pack (op imm : Byte) (a b c : B32) : immField (packBundle op imm a b c) = imm :=
  (extract_high (c ++ b ++ a ++ imm) op 0 8).trans BitVec.extractLsb'_append_eq_right

theorem aField_pack (op imm : Byte) (a b c : B32) : aField (packBundle op imm a b c) = a :=
  (extract_high (c ++ b ++ a ++ imm) op 8 32).trans <|
    (extract_high (c ++ b ++ a) imm 0 32).trans BitVec.extractLsb'_append_eq_right

theorem bField_pack (op imm : Byte) (a b c : B32) : bField (packBundle op imm a b c) = b :=
  (extract_high (c ++ b ++ a ++ imm) op 40 32).trans <|
    (extract_high (c ++ b ++ a) imm 32 32).trans <|
      (extract_high (c ++ b) a 0 32).trans BitVec.extractLsb'_append_eq_right

theorem cField_pack (op imm : Byte) (a b c : B32) : cField (packBundle op imm a b c) = c :=
  (extract_high (c ++ b ++ a ++ imm) op 72 32).trans <|
    (extract_high (c ++ b ++ a) imm 64 32).trans <|
      (extract_high (c ++ b) a 32 32).trans <|
        (extract_high c b 0 32).trans (by simp)

/-- A packed bundle is well formed when its op code is assigned and the fields the op does not read are zero. -/
theorem wellFormed_pack {op imm : Byte} {a b c : B32} {f : FieldsRead} (hf : fieldsRead op = some f)
    (himm : f.imm = true ∨ imm = 0) (ha : a.toNat < 2 ^ f.aBits) (hbc : f.bc = true ∨ (b = 0 ∧ c = 0)) :
    (packBundle op imm a b c).wellFormed = true := by
  unfold Bundle.wellFormed
  simp only [opField_pack, immField_pack, aField_pack, bField_pack, cField_pack, hf]
  rcases himm with h1 | rfl <;> rcases hbc with h2 | ⟨rfl, rfl⟩ <;> simp_all

/-- A byte operand in `a` is below 2^8. -/
theorem byteOperand_lt (d : Byte) : (d.setWidth 32).toNat < 2 ^ 8 := by
  have := d.isLt
  simp only [BitVec.toNat_setWidth]
  omega

theorem nop : Statement .nop := wellFormed_pack rfl (.inr rfl) (by decide) (.inr ⟨rfl, rfl⟩)
theorem crcInit : Statement .crcInit := wellFormed_pack rfl (.inr rfl) (by decide) (.inr ⟨rfl, rfl⟩)
theorem rxReset : Statement .rxReset := wellFormed_pack rfl (.inr rfl) (by decide) (.inr ⟨rfl, rfl⟩)
theorem medEval : Statement .medEval := wellFormed_pack rfl (.inr rfl) (by decide) (.inr ⟨rfl, rfl⟩)
theorem medClear : Statement .medClear := wellFormed_pack rfl (.inr rfl) (by decide) (.inr ⟨rfl, rfl⟩)
theorem mafClear : Statement .mafClear := wellFormed_pack rfl (.inr rfl) (by decide) (.inr ⟨rfl, rfl⟩)
theorem medMaf : Statement .medMaf := wellFormed_pack rfl (.inr rfl) (by decide) (.inr ⟨rfl, rfl⟩)
theorem lutVerify : Statement .lutVerify := wellFormed_pack rfl (.inr rfl) (by decide) (.inr ⟨rfl, rfl⟩)
theorem crcByte (d : Byte) : Statement (.crcByte d) :=
  wellFormed_pack rfl (.inl rfl) (by decide) (.inr ⟨rfl, rfl⟩)
theorem rxFeed (d : Byte) : Statement (.rxFeed d) :=
  wellFormed_pack rfl (.inl rfl) (by decide) (.inr ⟨rfl, rfl⟩)
theorem txPlWrite (idx d : Byte) : Statement (.txPlWrite idx d) :=
  wellFormed_pack rfl (.inl rfl) (byteOperand_lt idx) (.inr ⟨rfl, rfl⟩)
theorem txAck (cmd status : Byte) : Statement (.txAck cmd status) :=
  wellFormed_pack rfl (.inl rfl) (byteOperand_lt status) (.inr ⟨rfl, rfl⟩)
theorem txData (cmd n : Byte) : Statement (.txData cmd n) :=
  wellFormed_pack rfl (.inl rfl) (byteOperand_lt n) (.inr ⟨rfl, rfl⟩)
theorem txReport (cmd : Byte) (temp volt cur : B32) : Statement (.txReport cmd temp volt cur) :=
  wellFormed_pack rfl (.inl rfl) temp.isLt (.inl rfl)
theorem medPush (x : B32) : Statement (.medPush x) :=
  wellFormed_pack rfl (.inr rfl) x.isLt (.inr ⟨rfl, rfl⟩)
theorem mafPush (x : B32) : Statement (.mafPush x) :=
  wellFormed_pack rfl (.inr rfl) x.isLt (.inr ⟨rfl, rfl⟩)
theorem lutLookup (v : B32) : Statement (.lutLookup v) :=
  wellFormed_pack rfl (.inr rfl) v.isLt (.inr ⟨rfl, rfl⟩)
theorem mapSetT4 (t : B32) : Statement (.mapSetT4 t) :=
  wellFormed_pack rfl (.inr rfl) t.isLt (.inr ⟨rfl, rfl⟩)
theorem mapSetT20 (t : B32) : Statement (.mapSetT20 t) :=
  wellFormed_pack rfl (.inr rfl) t.isLt (.inr ⟨rfl, rfl⟩)
theorem mapCalc (t : B32) : Statement (.mapCalc t) :=
  wellFormed_pack rfl (.inr rfl) t.isLt (.inr ⟨rfl, rfl⟩)
theorem mapUpdate (t : B32) : Statement (.mapUpdate t) :=
  wellFormed_pack rfl (.inr rfl) t.isLt (.inr ⟨rfl, rfl⟩)
theorem mapSetCurrent (cur : B32) : Statement (.mapSetCurrent cur) :=
  wellFormed_pack rfl (.inr rfl) cur.isLt (.inr ⟨rfl, rfl⟩)

end Sys2Proof.Laws.CanonicalEncoding
end

