-- ==== Sys2Proof/Laws/Step.lean ====
section
/-! SUPPORT. What a step can do, said once; invariants are derived from `step_cases` and the arms. -/

namespace Sys2Proof.Machine

/-! The arms of `exec`. -/

theorem exec_nop (s : State) : exec .nop s = execNop s := rfl
theorem exec_crcInit (s : State) : exec .crcInit s = execCrcInit s := rfl
theorem exec_crcByte (d : Byte) (s : State) : exec (.crcByte d) s = execCrcByte d s := rfl
theorem exec_rxFeed (d : Byte) (s : State) : exec (.rxFeed d) s = execRxFeed d s := rfl
theorem exec_rxReset (s : State) : exec .rxReset s = execRxReset s := rfl
theorem exec_txPlWrite (idx d : Byte) (s : State) : exec (.txPlWrite idx d) s = execTxPlWrite idx d s := rfl
theorem exec_txAck (cmd status : Byte) (s : State) : exec (.txAck cmd status) s = execTxAck cmd status s := rfl
theorem exec_txData (cmd n : Byte) (s : State) : exec (.txData cmd n) s = execTxData cmd n s := rfl
theorem exec_txReport (cmd : Byte) (temp volt cur : B32) (s : State) :
    exec (.txReport cmd temp volt cur) s = execTxReport cmd temp volt cur s := rfl
theorem exec_medPush (x : B32) (s : State) : exec (.medPush x) s = execMedPush x s := rfl
theorem exec_medEval (s : State) : exec .medEval s = execMedEval s := rfl
theorem exec_medClear (s : State) : exec .medClear s = execMedClear s := rfl
theorem exec_mafPush (x : B32) (s : State) : exec (.mafPush x) s = execMafPush x s := rfl
theorem exec_mafClear (s : State) : exec .mafClear s = execMafClear s := rfl
theorem exec_medMaf (s : State) : exec .medMaf s = execMedMaf s := rfl
theorem exec_lutVerify (s : State) : exec .lutVerify s = execLutVerify s := rfl
theorem exec_lutLookup (v : B32) (s : State) : exec (.lutLookup v) s = execLutLookup v s := rfl
theorem exec_mapSetT4 (t : B32) (s : State) : exec (.mapSetT4 t) s = execMapSetT4 t s := rfl
theorem exec_mapSetT20 (t : B32) (s : State) : exec (.mapSetT20 t) s = execMapSetT20 t s := rfl
theorem exec_mapCalc (t : B32) (s : State) : exec (.mapCalc t) s = execMapCalc t s := rfl
theorem exec_mapUpdate (t : B32) (s : State) : exec (.mapUpdate t) s = execMapUpdate t s := rfl
theorem exec_mapSetCurrent (cur : B32) (s : State) : exec (.mapSetCurrent cur) s = execMapSetCurrent cur s := rfl

/-- LUT_VERIFY's next states: the race of R453, or the checked header. -/
theorem execLutVerify_cases {s t : State} (h : execLutVerify s = .next t) :
    (s.tblRace = true ∧ t = s.lutRace) ∨
    (s.tblRace = false ∧ ∃ ok, tblVerify s.params s.tbl = some ok ∧
      t = ({ s with lutOk := ok } : State).setRc (if ok then .ok else .tblInvalid)) := by
  unfold execLutVerify at h
  split at h
  · rename_i hr
    cases h
    exact .inl ⟨hr, rfl⟩
  · rename_i hr
    split at h
    · rename_i ok hok
      cases h
      exact .inr ⟨by simpa using hr, ok, hok, rfl⟩
    · cases h

/-- LUT_LOOKUP's next states: the race of R453, a lookup on a valid table, or the sentinel on an invalid one. -/
theorem execLutLookup_cases {v : B32} {s t : State} (h : execLutLookup v s = .next t) :
    (s.tblRace = true ∧ t = s.lutRace) ∨
    (s.tblRace = false ∧ tblVerify s.params s.tbl = some true ∧
      ∃ k, lookup s.params s.tbl v = some k ∧ t = s.setLookup true k) ∨
    (s.tblRace = false ∧ tblVerify s.params s.tbl = some false ∧ t = s.setLookup false pZero) := by
  unfold execLutLookup at h
  split at h
  · rename_i hr
    cases h
    exact .inl ⟨hr, rfl⟩
  · rename_i hr
    have hr' : s.tblRace = false := by simpa using hr
    split at h
    · rename_i hv
      split at h
      · rename_i k hk
        cases h
        exact .inr (.inl ⟨hr', hv, k, hk, rfl⟩)
      · cases h
    · rename_i hv
      cases h
      exact .inr (.inr ⟨hr', hv, rfl⟩)
    · cases h

/-- Everything a step that answers a next state can be. -/
theorem step_cases {s t : State} (h : step s = .next t) :
    (s.inputs = [] ∧ t = s.endPulse) ∨
    ∃ rest,
      (s.inputs = .quiet :: rest ∧ t = ({ s with inputs := rest } : State).endPulse) ∨
      (s.inputs = .reset :: rest ∧ t = ({ s with inputs := rest } : State).applyReset) ∨
      (∃ a b m, s.inputs = .tblWrite a b :: rest ∧ applyWrites s.params s.tbl [(a, b)] = some m ∧
        t = { s with inputs := rest, event := .none, tbl := m }) ∨
      (∃ w cs m, s.inputs = .op w cs :: rest ∧ applyWrites s.params s.tbl cs = some m ∧
        ((∃ i, decode w = .ok i ∧
            exec i { s with inputs := rest, event := .none, tbl := m, tblRace := tblChanges s.tbl cs } = .next t) ∨
          (∃ e, decode w = .error e ∧
            t = { s with inputs := rest, event := .none, tbl := m, tblRace := tblChanges s.tbl cs, rc := .illegalOp }))) := by
  unfold step at h
  split at h
  · rename_i hi
    cases h
    exact .inl ⟨hi, rfl⟩
  · rename_i inp rest hi
    refine .inr ⟨rest, ?_⟩
    cases inp with
    | quiet =>
      cases h
      exact .inl ⟨hi, rfl⟩
    | reset =>
      cases h
      exact .inr (.inl ⟨hi, rfl⟩)
    | tblWrite a b =>
      obtain ⟨m, hm, rfl⟩ := writeTable_next h
      exact .inr (.inr (.inl ⟨a, b, m, hi, hm, rfl⟩))
    | op w cs =>
      refine .inr (.inr (.inr ⟨w, cs, ?_⟩))
      simp only [runInput, runOp] at h
      split at h
      · rename_i s' hs'
        obtain ⟨m, hm, rfl⟩ := writeTable_next hs'
        refine ⟨m, hi, hm, ?_⟩
        unfold runBundle at h
        split at h
        · rename_i i hd
          exact .inl ⟨i, hd, h⟩
        · rename_i e hd
          cases h
          exact .inr ⟨e, hd, rfl⟩
      · cases h
      · cases h

end Sys2Proof.Machine
end

