-- ==== Sys2Proof/Tests/Slice0.lean ====
section
/-! SUPPORT. Our own tests: bundles written out by hand from 30_encoding.md R121 and R123, ill-formed terms that the checks
refuse, single ops from the vectors of 95_test_vectors.md (V-…), and for every statement that has hypotheses a witness that
meets them. Expected values are the spec's. -/

namespace Sys2Proof.Tests

open Sys2Proof Sys2Proof.Machine

-- One theorem after another: kernel evaluations that wait for each other would take a thread each.
set_option Elab.async false

/-! ## Helpers -/

/-- The example parameters of 95_test_vectors.md. -/
def params : Params := ⟨0x5441424C#32, 1024#16, 8200, 14⟩

/-- `TBL2` (46_lookup.md R338): the bytes that are not zero. -/
def tbl2 : Memory :=
  [(0, 0x4C#8), (1, 0x42#8), (2, 0x41#8), (3, 0x54#8), (4, 0x02#8), (10, 0x7A#8), (11, 0x44#8), (14, 0x96#8), (15, 0x43#8),
   (22, 0xC8#8), (23, 0x42#8)]

/-- The reset state with the example parameters and table. -/
def base : State := { State.reset with params := params, tbl := tbl2 }

/-- `base` with samples 5, 1, 4, 2, 3 in the median ring (V-MED-1). -/
def full : State :=
  { base with medBuf := #v[0x40A00000, 0x3F800000, 0x40800000, 0x40000000, 0x40400000], medCnt := 5 }

/-- `base` with the calibration T4 = −200, T20 = 100 (V-SRC-5). -/
def calibrated : State := { base with mapT4 := 0xC3480000, mapT20 := 0x42C80000 }

/-- `base` with the parser in state `st`. -/
def parsing (st : RxState) : State := { base with rxState := st }

/-- The op answers a next state, of which `p` holds. -/
def gives (i : Instr) (s : State) (p : State → Bool) : Bool :=
  match exec i s with
  | .next t => p t
  | .fault _ => false
  | .refused _ => false

theorem of_gives {i : Instr} {s : State} {p : State → Bool} (h : gives i s p = true) :
    ∃ t, exec i s = .next t ∧ p t = true := by
  unfold gives at h
  split at h
  · exact ⟨_, ‹_›, h⟩
  · cases h
  · cases h

/-! ## Decoding: words written out as `c b a imm op` (R121, R123) -/

theorem test_decode_control : decode 0x00000000_00000000_00000000_00_00#112 = .ok .nop := by decide +kernel

theorem test_decode_crc :
    decode 0x00000000_00000000_00000000_00_10#112 = .ok .crcInit ∧
    decode 0x00000000_00000000_00000000_5A_11#112 = .ok (.crcByte 0x5A) := by decide +kernel

theorem test_decode_parser :
    decode 0x00000000_00000000_00000000_AA_20#112 = .ok (.rxFeed 0xAA) ∧
    decode 0x00000000_00000000_00000000_00_21#112 = .ok .rxReset := by decide +kernel

theorem test_decode_encoder :
    decode 0x00000000_00000000_000000FE_6C_30#112 = .ok (.txPlWrite 0xFE 0x6C) ∧
    decode 0x00000000_00000000_00000003_02_31#112 = .ok (.txAck 0x02 0x03) ∧
    decode 0x00000000_00000000_000000FF_30_32#112 = .ok (.txData 0x30 0xFF) ∧
    decode 0x41400000_3FC00000_41D6CCCD_20_33#112 = .ok (.txReport 0x20 0x41D6CCCD 0x3FC00000 0x41400000) := by
  decide +kernel

theorem test_decode_median :
    decode 0x00000000_00000000_40A00000_00_40#112 = .ok (.medPush 0x40A00000) ∧
    decode 0x00000000_00000000_00000000_00_41#112 = .ok .medEval ∧
    decode 0x00000000_00000000_00000000_00_42#112 = .ok .medClear := by decide +kernel

theorem test_decode_moving_average :
    decode 0x00000000_00000000_3F8E7A26_00_50#112 = .ok (.mafPush 0x3F8E7A26) ∧
    decode 0x00000000_00000000_00000000_00_51#112 = .ok .mafClear ∧
    decode 0x00000000_00000000_00000000_00_52#112 = .ok .medMaf := by decide +kernel

theorem test_decode_lookup :
    decode 0x00000000_00000000_00000000_00_60#112 = .ok .lutVerify ∧
    decode 0x00000000_00000000_447A0000_00_61#112 = .ok (.lutLookup 0x447A0000) := by decide +kernel

theorem test_decode_mapper :
    decode 0x00000000_00000000_C3480000_00_70#112 = .ok (.mapSetT4 0xC3480000) ∧
    decode 0x00000000_00000000_42C80000_00_71#112 = .ok (.mapSetT20 0x42C80000) ∧
    decode 0x00000000_00000000_C2480000_00_72#112 = .ok (.mapCalc 0xC2480000) ∧
    decode 0x00000000_00000000_C291B332_00_73#112 = .ok (.mapUpdate 0xC291B332) ∧
    decode 0x00000000_00000000_41C80000_00_74#112 = .ok (.mapSetCurrent 0x41C80000) := by decide +kernel

/-- V-CTL-7, V-TX-9: fields and bits an op does not read are ignored. -/
theorem test_decode_ignores_unread_fields :
    decode 0x00000000_00000000_FFFFFFFF_FF_10#112 = .ok .crcInit ∧
    decode 0x00000000_00000000_FFFFFF03_02_31#112 = .ok (.txAck 0x02 0x03) := by decide +kernel

/-- V-CTL-3, V-CTL-4, V-CTL-5: unassigned op codes. -/
theorem test_decode_rejects_unassigned :
    decode 0x00000000_00000000_00000000_00_FF#112 = .error (.illegalOp 0xFF) ∧
    decode 0x00000000_00000000_DEADBEEF_34_12#112 = .error (.illegalOp 0x12) ∧
    decode 0x00000000_00000000_00000000_00_75#112 = .error (.illegalOp 0x75) ∧
    decode 0x00000000_00000000_00000000_00_80#112 = .error (.illegalOp 0x80) := by decide +kernel

theorem test_encode_report :
    encode (.txReport 0x20 0x41D6CCCD 0x3FC00000 0x41400000) = 0x41400000_3FC00000_41D6CCCD_20_33#112 := by decide +kernel

theorem test_decode_table_word :
    decodeTableWord 8 0x60 = some .lutVerify ∧ decodeTableWord 48 0x447A0000_00_61 = some (.lutLookup 0x447A0000) := by
  decide +kernel

/-! ## What the checks refuse -/

theorem test_illformed_unassigned_op : Bundle.wellFormed 0x01#112 = false := by decide +kernel
theorem test_illformed_unread_imm : Bundle.wellFormed 0x0100#112 = false := by decide +kernel
theorem test_illformed_unread_a : Bundle.wellFormed 0x00010060#112 = false := by decide +kernel
theorem test_illformed_high_a : Bundle.wellFormed 0x01030231#112 = false := by decide +kernel
theorem test_illformed_unread_b : Bundle.wellFormed 0x00000001_00000000_00_61#112 = false := by decide +kernel
theorem test_illformed_unread_c : Bundle.wellFormed 0x00000001_00000000_00000000_00_61#112 = false := by decide +kernel
theorem test_illformed_empty_lists :
    (Pseudo.crcBytes []).wellFormed = false ∧ (Pseudo.crcOf []).wellFormed = false ∧ (Pseudo.rxBytes []).wellFormed = false ∧
    (Pseudo.txPayload []).wellFormed = false := by decide +kernel
theorem test_illformed_long_payload : (Pseudo.txPayload (List.replicate 257 0)).wellFormed = false := by decide +kernel
theorem test_illformed_no_points : (Params.mk 0 0 8200 14).wf = false := by decide +kernel
theorem test_illformed_small_table : (Params.mk 0 1024 8199 14).wf = false := by decide +kernel
theorem test_illformed_narrow_address : (Params.mk 0 1024 8200 13).wf = false := by decide +kernel
theorem test_wellformed_params : params.wf = true := by decide +kernel

/-! ## One op each -/

/-- V-CTL-2. -/
theorem test_nop : gives .nop { base with rc := .medNotFull } (fun t => t.rc == .ok) = true := by decide +kernel

/-- V-CTL-4. -/
theorem test_illegal_op :
    (match runBundle 0x00000000_00000000_DEADBEEF_34_12#112 base with
      | .next t => t.rc == .illegalOp && t.crcAcc == 0xFFFF
      | .fault _ => false
      | .refused _ => false) = true := by decide +kernel

theorem test_crc_init : gives .crcInit { base with crcAcc := 0x1234 } (fun t => t.crcAcc == 0xFFFF) = true := by
  decide +kernel

/-- V-CRC-20. -/
theorem test_crc_byte : gives (.crcByte 0x56) { base with crcAcc := 0x1234 } (fun t => t.crcAcc == 0xE993) = true := by
  decide +kernel

/-- V-CRC-8. -/
theorem test_crc_check_value :
    crc16 [0x31, 0x32, 0x33, 0x34, 0x35, 0x36, 0x37, 0x38, 0x39] = 0x4B37 := by decide +kernel

/-- V-RX-13, the last byte. -/
theorem test_rx_feed_crc_error :
    gives (.rxFeed 0x55) { parsing .awaitingTail with rxCmd := 0x01, rxCrcRx := 0x0020, rxCrcCalc := 0x2000 }
      (fun t => t.rxEvt == .crcErr && t.event == .crcErr 0x01 && !t.rxFv && t.rxState == .awaitingHead) = true := by
  decide +kernel

/-- V-RX-1. -/
theorem test_rx_feed_frame :
    (match execList (Pseudo.expand (.rxBytes [0xAA, 0x01, 0x00, 0x00, 0x20, 0x55])) base with
      | .next t => t.event == .frameOk 0x01 0 && t.rxCrcRx == 0x2000 && t.rxCrcCalc == 0x2000 && t.rxFv
      | .fault _ => false
      | .refused _ => false) = true := by decide +kernel

/-- V-RX-11. -/
theorem test_rx_reset :
    gives .rxReset { parsing .collectingPayload with rxIdx := 2, rxLen := 3 }
      (fun t => t.rxState == .awaitingHead && t.rxEvt == .none && t.rxIdx == 2) = true := by decide +kernel

theorem test_tx_pl_write :
    gives (.txPlWrite 0xFF 0x6C) base (fun t => txPlRdata t 0xFF == 0x6C && txPlRdata t 0xFE == 0) = true := by decide +kernel

/-- V-TX-3, and the entries above the frame kept (V-TX-10). -/
theorem test_tx_ack :
    gives (.txAck 0x02 0x03) { base with txBuf := Vector.replicate 261 0x26 }
      (fun t => t.txLen == 7 && t.txBuf.toList.take 8 == [0xAA, 0x02, 0x01, 0x03, 0x91, 0x91, 0x55, 0x26]) = true := by
  decide +kernel

/-- V-TX-4. -/
theorem test_tx_data :
    gives (.txData 0x10 3) { base with txPl := #v[0x01#8, 0x02#8, 0x03#8] ++ Vector.replicate 253 0x00#8 }
      (fun t => transportFrame t == [0xAA, 0x10, 0x03, 0x01, 0x02, 0x03, 0xF5, 0x26, 0x55]) = true := by decide +kernel

/-- V-TX-7: the longest frame. -/
theorem test_tx_data_longest :
    gives (.txData 0x30 255) base
      (fun t => t.txLen == 261 && t.event == .txReady 261) = true := by decide +kernel

/-- V-TX-5. -/
theorem test_tx_report :
    gives (.txReport 0x20 0x41D6CCCD 0x3FC00000 0x41400000) base (fun t => transportFrame t ==
      [0xAA, 0x20, 0x0C, 0xCD, 0xCC, 0xD6, 0x41, 0x00, 0x00, 0xC0, 0x3F, 0x00, 0x00, 0x40, 0x41, 0x9A, 0xFC, 0x55]) = true := by
  decide +kernel

/-- V-MED-4: the sixth push overwrites slot 0. -/
theorem test_med_push :
    gives (.medPush 0x40C00000) full (fun t => t.medBuf[0] == 0x40C00000 && t.medBuf[1] == 0x3F800000 && t.medWr == 1 &&
      t.medCnt == 5) = true := by decide +kernel

/-- V-MED-1. -/
theorem test_med_eval : gives .medEval full (fun t => t.medOut == 0x40400000 && t.rc == .ok) = true := by decide +kernel

/-- V-MED-7. -/
theorem test_med_eval_zeros :
    median5 #v[0x80000000, 0x00000000, 0x80000000, 0x00000000, 0x80000000] = 0x80000000 := by decide +kernel

/-- V-MED-10. -/
theorem test_med_clear :
    gives .medClear { full with medOut := 0x40400000 }
      (fun t => t.medCnt == 0 && t.medBuf[0] == 0 && t.medOut == 0x40400000) = true := by decide +kernel

/-- V-MAF-12. -/
theorem test_maf_push :
    gives (.mafPush 0x40000000) { base with mafWin := Vector.replicate 16 0x3F8E7A26, mafCnt := 16 }
      (fun t => t.mafOut == 0x3F959284 && t.mafWr == 1) = true := by decide +kernel

/-- V-MAF-10, and the rows of R307 with a tie and with the sign of a zero. -/
theorem test_mean_tie :
    mean [0x00000001, 0x00000000] = 0x00000000 ∧ mean [0x00000003, 0x00000000] = 0x00000002 ∧
    mean [0x80000001, 0x00000000] = 0x80000000 := by decide +kernel

/-- V-MAF-13. -/
theorem test_maf_clear :
    gives .mafClear { base with mafOut := 0x40400000, mafWr := 3, mafCnt := 3 }
      (fun t => t.mafOut == 0 && t.mafCnt == 0) = true := by decide +kernel

/-- V-MAF-14. -/
theorem test_med_maf :
    gives .medMaf full (fun t => t.medOut == 0x40400000 && t.mafOut == 0x40400000 && t.mafCnt == 1) = true := by decide +kernel

/-- V-MAF-14, from reset. -/
theorem test_med_maf_not_full : gives .medMaf base (fun t => t.rc == .medNotFull && t.mafCnt == 0) = true := by decide +kernel

/-- V-LUT-1. -/
theorem test_lut_verify : gives .lutVerify base (fun t => t.lutOk && t.rc == .ok) = true := by decide +kernel

/-- V-LUT-9: count field 1025. -/
theorem test_lut_verify_count :
    gives .lutVerify { base with tbl := (tbl2.write 4 0x01).write 5 0x04 }
      (fun t => !t.lutOk && t.rc == .tblInvalid) = true := by decide +kernel

/-- V-LUT-3. -/
theorem test_lut_lookup :
    gives (.lutLookup 0x43FAC000) base (fun t => t.lutK == 0x43484CCD && t.lutC == 0xC291B332) = true := by decide +kernel

/-- V-LUT-7. -/
theorem test_lut_lookup_invalid :
    gives (.lutLookup 0x43FA0000) { base with tbl := [] }
      (fun t => t.lutK == 0 && t.lutC == 0xC3889333 && t.rc == .tblInvalid) = true := by decide +kernel

theorem test_map_set_t4 :
    gives (.mapSetT4 0xC3480000) base (fun t => t.mapT4 == 0xC3480000 && t.mapT20 == 0) = true := by decide +kernel

theorem test_map_set_t20 :
    gives (.mapSetT20 0x42C80000) base (fun t => t.mapT20 == 0x42C80000 && t.mapT4 == 0) = true := by decide +kernel

/-- V-SRC-5, first row; `i_out` is not driven (V-MAP-9). -/
theorem test_map_calc :
    gives (.mapCalc 0xC2480000) calibrated (fun t => t.mapRes == 0x41400000 && t.iOut == 0x40800000) = true := by
  decide +kernel

/-- V-MAP-1: the degenerate calibration. -/
theorem test_map_calc_degenerate : gives (.mapCalc 0x42C80000) base (fun t => t.mapRes == 0x41400000) = true := by
  decide +kernel

/-- V-MAP-10. -/
theorem test_map_update :
    gives (.mapUpdate 0xC291B332) calibrated
      (fun t => t.iOut == 0x412C8058 && t.mapRes == 0x412C8058 && t.event == .ioutUpdate 0x412C8058) = true := by
  decide +kernel

/-- V-MAP-4. -/
theorem test_map_set_current :
    gives (.mapSetCurrent 0x41C80000) calibrated (fun t => t.iOut == 0x41A00000 && t.mapRes == 0) = true := by decide +kernel

/-- V-MAP-6, from a NaN that is not the canonical one. -/
theorem test_map_set_current_nan : gives (.mapSetCurrent 0xFF812345) base (fun t => t.iOut == 0x7FC00000) = true := by
  decide +kernel

/-! ## Steps, ports, assembler -/

/-- A table row's bits offered after reset: the next step runs that op. -/
theorem test_step_from_reset :
    (match step (({ base with inputs := [.quiet] } : State).withFetchWord 48 0x447A0000_00_61) with
      | .next t => t.lutK == 0x43960000 && t.inputs == [.quiet]
      | .fault _ => false
      | .refused _ => false) = true := by decide +kernel

/-- The event pulse of an op lasts until the next input (R452). -/
theorem test_step_ends_pulse :
    (match step { base with event := .crcErr 0x02, inputs := [.quiet] } with
      | .next t => t.event == .none
      | .fault _ => false
      | .refused _ => false) = true := by decide +kernel

/-- A reset keeps the table (R442). -/
theorem test_step_reset :
    (match step { full with inputs := [.reset] } with
      | .next t => t.medCnt == 0 && t.tbl == tbl2
      | .fault _ => false
      | .refused _ => false) = true := by decide +kernel

/-- R54: above entry 260 and above entry 4. -/
theorem test_read_ports_above_the_arrays :
    txBufRdata { base with txBuf := Vector.replicate 261 0xFF } 260 = 0xFF ∧
    txBufRdata { base with txBuf := Vector.replicate 261 0xFF } 261 = 0x00 ∧ medRdata full 4 = 0x40400000 ∧ medRdata full 5 = 0 := by
  decide +kernel

/-- V-TX-5 in assembler notation (R140, R141). -/
theorem test_assemble_report :
    assembleLine "TX_REPORT 0x20, 26.85f, 1.5f, 12.0f".toList =
      some [.txReport 0x20 0x41D6CCCD 0x3FC00000 0x41400000] := by decide +kernel

/-- Literals of 95_test_vectors.md, and one that is none. -/
theorem test_assemble_literals :
    wordLiteral "-200.0f".toList = some 0xC3480000 ∧ wordLiteral "0x3F8E7A26".toList = some 0x3F8E7A26 ∧
    wordLiteral "nan".toList = some 0x7FC00000 ∧ wordLiteral "-inf".toList = some 0xFF800000 ∧
    wordLiteral "1e30f".toList = some 0x7149F2CA ∧ byteLiteral "256".toList = none := by decide +kernel

/-- A pseudo-op's line (R142), and one without operands. -/
theorem test_assemble_pseudo :
    assembleLine "CRC_OF 0x01, 0".toList = some [.crcInit, .crcByte 0x01, .crcByte 0x00] ∧
    assembleLine "CRC_OF".toList = none := by decide +kernel

/-- R142. -/
theorem test_expand_payload :
    Pseudo.expand (.txPayload [0x55, 0x6C]) = [.txPlWrite 0 0x55, .txPlWrite 1 0x6C] := by decide +kernel

/-- R440: an edge with `rst = 1` during an op: the op is abandoned. -/
theorem test_reset_abandons_op :
    (match tick ⟨true, false, 0, []⟩ ⟨full, some ⟨0x41, 3, []⟩, true, 7, Vector.replicate 256 2⟩ with
      | .next c => c.flight.isNone && c.arch.medCnt == 0 && c.arch.medOut == 0
      | .fault _ => false
      | .refused _ => false) = true := by decide +kernel

/-! ## Witnesses: what meets the hypotheses of each statement of Certificates/Slice0/Obligations.lean -/

theorem witness_EncodeOfDecodeIsTheBundle :
    Bundle.wellFormed 0x41400000_3FC00000_41D6CCCD_20_33#112 = true ∧ Bundle.wellFormed 0x00000000_00000000_000000FF_FF_32#112 = true ∧
    Bundle.wellFormed 0#112 = true := by decide +kernel

theorem witness_UnreadFieldsGiveTheSameResult :
    ∃ w w' : Bundle, w ≠ w' ∧ opField w = opField w' ∧ ∀ f, fieldsRead (opField w) = some f →
      (f.imm = true → immField w = immField w') ∧
      (aField w).toNat % 2 ^ f.aBits = (aField w').toNat % 2 ^ f.aBits ∧
      (f.bc = true → bField w = bField w' ∧ cField w = cField w') := by
  refine ⟨0x00000000_00000000_00000003_02_31#112, 0xFFFFFFFF_FFFFFFFF_FFFFFF03_02_31#112, by decide +kernel, by decide +kernel,
    fun f hf => ?_⟩
  have h : fieldsRead (opField 0x00000000_00000000_00000003_02_31#112) = some ⟨true, 8, false⟩ := by decide +kernel
  obtain rfl : ⟨true, 8, false⟩ = f := Option.some.inj (h.symm.trans hf)
  decide +kernel

theorem witness_UnitIsTheHighNibbleOfTheOpCode :
    (∃ i, decode 0x00#112 = .ok i) ∧ (∃ i, decode 0x74#112 = .ok i) ∧
    8 ≤ ((opField 0x80#112).extractLsb' 4 4).toNat ∧ 8 ≤ ((opField 0xFF#112).extractLsb' 4 4).toNat :=
  ⟨⟨.nop, by decide +kernel⟩, ⟨.mapSetCurrent 0, by decide +kernel⟩, by decide +kernel, by decide +kernel⟩

theorem witness_UnassignedOpCodesWriteOnlyIllegalOp :
    ∀ n ∈ [0x01, 0x75, 0xFF], (opField (BitVec.ofNat 112 n)).toNat ∉ [0x00, 0x10, 0x11, 0x20, 0x21, 0x30, 0x31, 0x32, 0x33, 0x40,
      0x41, 0x42, 0x50, 0x51, 0x52, 0x60, 0x61, 0x70, 0x71, 0x72, 0x73, 0x74] := by decide +kernel

theorem witness_StepRunsTheDecodedOp :
    (∃ (s : State) (w : Bundle) (rest : List Input) (i : Instr), s.inputs = .op w [] :: rest ∧ decode w = .ok i) ∧
    ∃ (s : State) (w : Bundle) (rest : List Input) (e : DecodeError), s.inputs = .op w [] :: rest ∧ decode w = .error e :=
  ⟨⟨{ base with inputs := [.op 0x41 [], .quiet] }, 0x41, [.quiet], .medEval, rfl, by decide +kernel⟩,
    ⟨{ base with inputs := [.op 0x12 []] }, 0x12, [], .illegalOp 0x12, rfl, by decide +kernel⟩⟩

/-- The highest address of the table, and no byte at all; a bundle that is an op and one that is none. -/
theorem witness_StepWithTableWritesRunsTheDecodedOp :
    (∀ w : Bundle, ∀ cs ∈ [[], [((8199, 0x01#8) : Host.Cell)]], ∃ (s : State) (m : Memory), s.inputs = .op w cs :: [] ∧
      applyWrites s.params s.tbl cs = some m) ∧
    decode 0x60 = .ok .lutVerify ∧ decode 0x62 = .error (.illegalOp 0x62) := by
  refine ⟨fun w cs hc => ?_, by decide +kernel, by decide +kernel⟩
  simp only [List.mem_cons, List.not_mem_nil, or_false] at hc
  rcases hc with rfl | rfl
  · exact ⟨{ base with inputs := [.op w []] }, _, rfl, rfl⟩
  · refine ⟨{ base with inputs := [.op w [(8199, 0x01#8)]] }, tbl2.write 8199 0x01, rfl, ?_⟩
    have h : applyWrites params tbl2 [(8199, 0x01#8)] = some (tbl2.write 8199 0x01) := by decide +kernel
    exact h

theorem tbl2_wf : tbl2.wf = true := by decide +kernel

theorem witness_StepsWithoutAnOp :
    base.inputs = [] ∧ (∃ (s : State) (rest : List Input), s.inputs = .quiet :: rest) ∧
    (∃ (s : State) (rest : List Input), s.inputs = .reset :: rest) ∧
    ∀ a ∈ [0, 8199], ∃ (s : State) (rest : List Input),
      s.inputs = .tblWrite a 0x01 :: rest ∧ a < s.params.tblBytes ∧ s.tbl.wf = true :=
  ⟨rfl, ⟨{ base with inputs := [.quiet] }, [], rfl⟩, ⟨{ base with inputs := [.reset] }, [], rfl⟩, fun a ha =>
    ⟨{ base with inputs := [.tblWrite a 0x01] }, [], rfl, by
      simp only [List.mem_cons, List.not_mem_nil, or_false] at ha
      rcases ha with rfl | rfl <;> decide +kernel, tbl2_wf⟩⟩

/-- The last address of the table for each read of the port statement. -/
theorem witness_ReadPortsGiveTheEntryOrZero :
    params.wf = true ∧ 8199 < params.tblBytes ∧ 8198 + 2 ≤ params.tblBytes ∧ 8196 + 4 ≤ params.tblBytes := by decide +kernel

theorem witness_EveryOpCompletes : base.params.wf = true ∧ (Params.mk 0 1 16 4).wf = true := by decide +kernel

/-- One op for each result code that an op writes. -/
theorem witness_ResultCodesOfEachOp :
    (∃ t, exec .nop base = .next t ∧ (t.rc == .ok) = true) ∧ (∃ t, exec .medEval base = .next t ∧ (t.rc == .medNotFull) = true) ∧
    (∃ t, exec .medMaf base = .next t ∧ (t.rc == .medNotFull) = true) ∧
    (∃ t, exec .lutVerify { base with tbl := [] } = .next t ∧ (t.rc == .tblInvalid) = true) ∧
    ∃ t, exec (.lutLookup 0) { base with tbl := [] } = .next t ∧ (t.rc == .tblInvalid) = true :=
  ⟨of_gives (p := fun t => t.rc == .ok) (by decide +kernel), of_gives (p := fun t => t.rc == .medNotFull) (by decide +kernel),
    of_gives (p := fun t => t.rc == .medNotFull) (by decide +kernel), of_gives (p := fun t => t.rc == .tblInvalid) (by decide +kernel),
    of_gives (p := fun t => t.rc == .tblInvalid) (by decide +kernel)⟩

theorem witness_ErrorsNeverHalfApplyAnOp :
    (∃ t, exec .medEval base = .next t ∧ t.rc = .medNotFull) ∧
    (∃ (s t : State), exec .lutVerify s = .next t ∧ (t.rc == .tblInvalid) = true ∧ s.tblRace = false) ∧
    ∃ (s t : State), exec (.lutLookup 0) s = .next t ∧ (t.rc == .tblInvalid) = true ∧ s.tblRace = false :=
  ⟨⟨_, rfl, rfl⟩,
    have ⟨t, h⟩ := of_gives (i := .lutVerify) (s := { base with tbl := [] }) (p := fun t => t.rc == .tblInvalid) (by decide +kernel)
    ⟨_, t, h.1, h.2, rfl⟩,
    have ⟨t, h⟩ := of_gives (i := .lutLookup 0) (s := { base with tbl := [] }) (p := fun t => t.rc == .tblInvalid) (by decide +kernel)
    ⟨_, t, h.1, h.2, rfl⟩⟩

theorem witness_NoOpWritesTheTable : ∃ t, exec (.lutLookup 0x43FAC000) base = .next t ∧ (t.lutOk) = true :=
  of_gives (p := fun t => t.lutOk) (by decide +kernel)

theorem witness_MemoriesThatReadAlikeAreEqual :
    ∃ m m' : Memory, m.wf = true ∧ m'.wf = true ∧ ∀ a, m.get a = m'.get a :=
  ⟨tbl2, tbl2, by decide +kernel, by decide +kernel, fun _ => rfl⟩

/-- A bundle of every op code whose decoding a statement gives. -/
theorem witness_decode_clauses :
    ∀ n ∈ [0x00, 0x10, 0x11, 0x20, 0x21, 0x30, 0x31, 0x32, 0x33, 0x40, 0x41, 0x42, 0x50, 0x51, 0x52, 0x60, 0x61, 0x70, 0x71, 0x72,
      0x73, 0x74], opField (0xFFFFFFFF_FFFFFFFF_FFFFFFFF_FF_00#112 ||| BitVec.ofNat 112 n) = BitVec.ofNat 8 n := by decide +kernel

theorem witness_CrcIsAffine : ([0x01, 0x00] : List Byte).length = ([0x00, 0x01] : List Byte).length := rfl

/-- A state and a byte for each clause, in the clauses' order; the payload's last byte at lengths 1 and 255. -/
theorem witness_RxFeedInEachState :
    (base.rxState = .awaitingHead ∧ (0x00#8 ≠ 0xAA#8) ∧ 0xAA#8 = 0xAA#8) ∧
    (parsing .gotCmd).rxState = .gotCmd ∧ ((parsing .gotLen).rxState = .gotLen ∧ 0x00#8 = 0x00#8 ∧ 0xFF#8 ≠ 0x00#8) ∧
    (∃ s : State, s.rxState = .collectingPayload ∧ s.rxIdx + 1 ≠ s.rxLen) ∧
    (∃ s : State, s.rxState = .collectingPayload ∧ s.rxIdx + 1 = s.rxLen ∧ s.rxLen = 0x01#8) ∧
    (∃ s : State, s.rxState = .collectingPayload ∧ s.rxIdx + 1 = s.rxLen ∧ s.rxLen = 0xFF#8) ∧
    (parsing .gotCrcLow).rxState = .gotCrcLow ∧ (parsing .gotCrcHigh).rxState = .gotCrcHigh ∧
    (∃ s : State, s.rxState = .awaitingTail ∧ 0x55#8 = 0x55#8 ∧ s.rxCrcRx = s.rxCrcCalc) ∧
    (∃ s : State, s.rxState = .awaitingTail ∧ 0x55#8 = 0x55#8 ∧ s.rxCrcRx ≠ s.rxCrcCalc) ∧
    ((parsing .awaitingTail).rxState = .awaitingTail ∧ 0xAA#8 ≠ 0x55#8) :=
  ⟨⟨rfl, by decide, rfl⟩, rfl, ⟨rfl, rfl, by decide⟩, ⟨{ parsing .collectingPayload with rxLen := 2 }, rfl, by decide +kernel⟩,
    ⟨{ parsing .collectingPayload with rxLen := 1 }, rfl, by decide +kernel, rfl⟩,
    ⟨{ parsing .collectingPayload with rxIdx := 254, rxLen := 255 }, rfl, by decide +kernel, rfl⟩, rfl, rfl,
    ⟨{ parsing .awaitingTail with rxCrcRx := 0xFFFF }, rfl, rfl, by decide +kernel⟩,
    ⟨parsing .awaitingTail, rfl, rfl, by decide +kernel⟩, rfl, by decide⟩

theorem witness_ValidatedFrameIsHeld :
    ∃ (i : Instr) (s t : State), exec i s = .next t ∧ s.rxState = .awaitingHead ∧ s.rxFv = true ∧ t.rxFv = true :=
  ⟨.crcInit, { base with rxFv := true }, _, rfl, rfl, rfl, rfl⟩

theorem base_parserInv : ParserInv base where
  atCmd h := by cases h
  atLen h := by cases h
  atPayload h := by cases h
  atTrailer h := by rcases h with h | h | h <;> cases h
  valid h := by cases h

theorem witness_StepKeepsTheParserInvariant : ∃ s t : State, ParserInv s ∧ step s = .next t :=
  ⟨base, _, base_parserInv, rfl⟩

/-- No payload byte and 255, and the frame of no payload byte up to its last byte but one. -/
theorem witness_FrameRoundTrip :
    base.rxState = .awaitingHead ∧ base.event = .none ∧ ([] : List Byte).length ≤ 255 ∧ (List.replicate 255 0x00#8).length ≤ 255 ∧
    ∃ t, 5 < ([] : List Byte).length + 6 ∧ execList (((buildFrame 0x01 []).take 5).map .rxFeed) base = .next t := by
  refine ⟨rfl, rfl, Nat.zero_le _, (List.length_replicate ..).le, ?_⟩
  have h : (match execList (((buildFrame 0x01 []).take 5).map .rxFeed) base with
    | .next _ => true | .fault _ => false | .refused _ => false) = true := by decide +kernel
  split at h
  · exact ⟨_, by simp, ‹_›⟩
  · cases h
  · cases h

theorem witness_MedEvalWritesTheMiddleSample :
    base.medCnt.val < 5 ∧ ({ full with medCnt := 4 } : State).medCnt.val < 5 ∧ full.medCnt.val = 5 := by decide +kernel

theorem witness_MedMafIsMedEvalThenMafPush : ({ full with medCnt := 4 } : State).medCnt.val < 5 ∧ full.medCnt.val = 5 := by
  decide +kernel

theorem all_finite {w : List B32} (h : w.all isFinite = true) : ∀ x ∈ w, isFinite x = true := List.all_eq_true.mp h

theorem none_nan {w : List B32} (h : w.any isNaN = false) : ∀ x ∈ w, isNaN x = false := fun x hx => by
  simpa using List.any_eq_false.mp h x hx

/-- A window for each row of the table of R302. -/
theorem witness_MeanOfSpecialValues :
    (∃ x ∈ [0x3F800000#32, 0x7FC00000#32], isNaN x = true) ∧
    ((∀ x ∈ [0x7F800000#32, 0xFF800000#32], isNaN x = false) ∧
      0x7F800000#32 ∈ [0x7F800000#32, 0xFF800000#32] ∧ 0xFF800000#32 ∈ [0x7F800000#32, 0xFF800000#32]) ∧
    ((∀ x ∈ [0x7F800000#32, 0x3F800000#32], isNaN x = false) ∧
      0x7F800000#32 ∈ [0x7F800000#32, 0x3F800000#32] ∧ 0xFF800000#32 ∉ [0x7F800000#32, 0x3F800000#32]) ∧
    ((∀ x ∈ [0xFF800000#32], isNaN x = false) ∧ 0x7F800000#32 ∉ [0xFF800000#32] ∧ 0xFF800000#32 ∈ [0xFF800000#32]) ∧
    ((∀ x ∈ [0x3F800000#32, 0xBF800000#32], isFinite x = true) ∧ ([0x3F800000#32, 0xBF800000#32].map value).sum = 0) ∧
    ((∀ x ∈ [0x80000000#32, 0x80000000#32], isFinite x = true) ∧ ([0x80000000#32, 0x80000000#32].map value).sum = 0) :=
  ⟨⟨0x7FC00000, by simp, by decide +kernel⟩, ⟨none_nan (by decide +kernel), by simp, by simp⟩,
    ⟨none_nan (by decide +kernel), by simp, by simp⟩, ⟨none_nan (by decide +kernel), by simp, by simp⟩,
    ⟨all_finite (by decide +kernel), by decide +kernel⟩, ⟨all_finite (by decide +kernel), by decide +kernel⟩⟩

/-- The largest values; a tie; a positive and a negative mean that round to a zero. -/
theorem witness_MeanIsNearestToTheExactMean :
    ([0x7F7FFFFF#32, 0x7F7FFFFF#32] ≠ [] ∧ (∀ x ∈ [0x7F7FFFFF#32, 0x7F7FFFFF#32], isFinite x = true) ∧
      isFinite 0x7F7FFFFF#32 = true) ∧
    ((∀ x ∈ [0x00000003#32, 0x00000000#32], isFinite x = true) ∧ isFinite 0x00000001#32 = true ∧
      |value (mean [0x00000003#32, 0x00000000#32]) - exactMean [0x00000003#32, 0x00000000#32]| =
        |value 0x00000001#32 - exactMean [0x00000003#32, 0x00000000#32]| ∧
      value 0x00000001#32 ≠ value (mean [0x00000003#32, 0x00000000#32])) ∧
    ((∀ x ∈ [0x00000001#32, 0x00000000#32], isFinite x = true) ∧ 0 < exactMean [0x00000001#32, 0x00000000#32] ∧
      value (mean [0x00000001#32, 0x00000000#32]) = 0) ∧
    ((∀ x ∈ [0x80000001#32, 0x00000000#32], isFinite x = true) ∧ exactMean [0x80000001#32, 0x00000000#32] < 0 ∧
      value (mean [0x80000001#32, 0x00000000#32]) = 0) :=
  ⟨⟨by simp, all_finite (by decide +kernel), by decide +kernel⟩,
    ⟨all_finite (by decide +kernel), by decide +kernel, by decide +kernel, by decide +kernel⟩,
    ⟨all_finite (by decide +kernel), by decide +kernel, by decide +kernel⟩,
    ⟨all_finite (by decide +kernel), by decide +kernel, by decide +kernel⟩⟩

theorem witness_MeanIgnoresTheOrderOfTheWindow :
    List.Perm [0x3F800000#32, 0x40000000#32] [0x40000000#32, 0x3F800000#32] := List.Perm.swap _ _ _

theorem witness_MeanLiesWithinTheWindow :
    [0x00000001#32, 0x00000000#32] ≠ [] ∧ ∀ x ∈ [0x00000001#32, 0x00000000#32], isFinite x = true :=
  ⟨by simp, all_finite (by decide +kernel)⟩

theorem base_stateInv : StateInv base where
  medFill _ := rfl
  mafFill _ := rfl
  collecting h := by cases h
  frameValid h := by cases h
  txLength := .inl rfl
  current := by decide +kernel
  tblCanonical := by decide +kernel
  tblInside := by decide +kernel

theorem witness_ConstantPushesConvergeExactly :
    isNaN 0x3F8E7A26#32 = false ∧ isNaN 0x7F800000#32 = false ∧ isNaN 0x7F800001#32 = true ∧ StateInv base ∧ base.mafCnt = 0 ∧
    1 ≤ 1 ∧ 16 ≤ 16 :=
  ⟨by decide +kernel, by decide +kernel, by decide +kernel, base_stateInv, rfl, le_refl 1, le_refl 16⟩

theorem witness_Round32IsNearestTiesToEven :
    isFinite 0x80000001#32 = true ∧ isFinite 0x7F7FFFFF#32 = true ∧ |(1 / 3 : ℚ)| < 2 ^ 128 - 2 ^ 103 ∧
    |value (round32 (1 / 2 ^ 150)) - 1 / 2 ^ 150| = |value 0x00000001#32 - 1 / 2 ^ 150| ∧
    value 0x00000001#32 ≠ value (round32 (1 / 2 ^ 150)) ∧
    (2 ^ 128 - 2 ^ 103 : ℚ) ≤ 2 ^ 128 - 2 ^ 103 ∧ -(2 ^ 128 - 2 ^ 103 : ℚ) ≤ -(2 ^ 128 - 2 ^ 103) :=
  ⟨by decide +kernel, by decide +kernel, by norm_num, by decide +kernel, by decide +kernel, le_refl _, le_refl _⟩

/-- A pair of patterns for each clause, in the clauses' order: a NaN, the finite pairs, an infinity on either side and on both. -/
theorem witness_ArithmeticIsExactThenRounded :
    isNaN 0xFFC00001#32 = true ∧ (isFinite 0x3F800000#32 = true ∧ isFinite 0xBF800000#32 = true) ∧
    (isFinite 0x80000000#32 = true ∧ isFinite 0x00000000#32 = true) ∧
    value 0x3F800000#32 + value 0x80000000#32 ≠ 0 ∧ value 0x3F800000#32 + value 0xBF800000#32 = 0 ∧
    value 0x80000000#32 + value 0x80000000#32 = 0 ∧ value 0x3F800000#32 - value 0x80000000#32 ≠ 0 ∧
    value 0x80000000#32 - value 0x00000000#32 = 0 ∧ value 0x3F800000#32 * value 0xBF800000#32 ≠ 0 ∧
    value 0x3F800000#32 * value 0x80000000#32 = 0 ∧ value 0x3F800000#32 ≠ 0 ∧ value 0xBF800000#32 ≠ 0 ∧
    value 0x80000000#32 = 0 ∧ value 0x00000000#32 = 0 ∧
    (isInf 0x7F800000#32 = true ∧ isInf 0xFF800000#32 = true ∧ 0x7F800000#32 ≠ 0xFF800000#32) := by decide +kernel

theorem witness_NanResultsAreCanonical :
    isNaN (fadd 0x7F800000 0xFF800000) = true ∧ isNaN (fsub 0x7F800000 0x7F800000) = true ∧
    isNaN (fmul 0x00000000 0x7F800000) = true ∧ isNaN (fdiv 0x00000000 0x80000000) = true ∧
    isNaN (clampCurrent 0xFF812345) = true := by decide +kernel

theorem witness_ComparisonsFollowTheValues :
    isNaN 0x7FC00000#32 = true ∧ isFinite 0x00000000#32 = true ∧ isFinite 0x80000000#32 = true ∧
    (isNaN 0xFF800000#32 = false ∧ 0xFF800000#32 ≠ pInf) ∧ (isNaN 0x7F800000#32 = false ∧ 0x7F800000#32 ≠ nInf) := by
  decide +kernel

theorem witness_KeyIsATotalOrder :
    key 0x7FC12345#32 = key 0x7FC12345#32 ∧ (isFinite 0x80000001#32 = true ∧ isFinite 0x00000000#32 = true) ∧
    value 0x80000001#32 < value 0x00000000#32 ∧ (isNaN 0xFF800001#32 = true ∧ (0xFF800001#32).getLsbD 31 = true) ∧
    (isNaN 0x7F800001#32 = true ∧ (0x7F800001#32).getLsbD 31 = false) ∧
    ((0x7FC00001#32).getLsbD 31 = false ∧ (0x7FC00002#32).getLsbD 31 = false) ∧
    ((0xFFC00001#32).getLsbD 31 = true ∧ (0xFFC00002#32).getLsbD 31 = true) := by decide +kernel

theorem base_headerValid : headerValid base.params base.tbl := by unfold headerValid; decide +kernel

theorem blank_headerInvalid : ¬ headerValid params [] := by unfold headerValid; decide +kernel

/-- Point counts at the bounds: 1 and `TABLE_MAX_POINTS` pass, 0 and one more do not. -/
theorem witness_LutVerifyChecksTheHeader :
    base.params.wf = true ∧ base.tblRace = false ∧ headerValid params tbl2 ∧ headerValid params (tbl2.write 4 0x01) ∧
    headerValid params ((tbl2.write 4 0x00).write 5 0x04) ∧ ¬ headerValid params (tbl2.write 4 0x00) ∧
    ¬ headerValid params ((tbl2.write 4 0x01).write 5 0x04) := by unfold headerValid; decide +kernel

/-- A one-point table whose voltage is a NaN. -/
def tblNaN : Memory := ((tbl2.write 4 0x01).write 10 0xC0).write 11 0x7F

/-- An invalid header; queries at the first and at the last voltage; a NaN, on two points and on one; a query that is no NaN on
one point whose voltage is. -/
theorem witness_LutLookupSentinelAndClamps :
    base.params.wf = true ∧ base.tblRace = false ∧ (¬ headerValid params []) ∧ headerValid params tbl2 ∧
    fge 0x447A0000 (voltAt tbl2 0) = true ∧
    (fge 0x80000000 (voltAt tbl2 0) = false ∧ fle 0x80000000 (voltAt tbl2 (headerCount tbl2 - 1)) = true) ∧
    isNaN 0x7FC00000#32 = true ∧ headerValid params (tbl2.write 4 0x01) ∧
    (headerValid params tblNaN ∧ headerCount tblNaN = 1 ∧ isNaN 0x447A0000#32 = false ∧
      fge 0x447A0000 (voltAt tblNaN 0) = false ∧ fle 0x447A0000 (voltAt tblNaN 0) = false) := by
  unfold headerValid; decide +kernel

theorem witness_LutLookupInterpolatesInTheBracket :
    base.params.wf = true ∧ base.tblRace = false ∧ headerValid params tbl2 ∧ 2 ≤ headerCount tbl2 ∧
    fge 0x43FA0000 (voltAt tbl2 0) = false ∧ fle 0x43FA0000 (voltAt tbl2 (headerCount tbl2 - 1)) = false ∧
    voltagesDecrease tbl2 (headerCount tbl2) ∧ isNaN 0x43FA0000#32 = false := by
  have h : headerCount tbl2 = 2 := by decide +kernel
  refine ⟨by decide +kernel, rfl, base_headerValid, by decide +kernel, by decide +kernel, by decide +kernel, ?_, by decide +kernel⟩
  rw [h]
  refine ⟨?_, ?_⟩
  · intro i hi
    interval_cases i <;> decide +kernel
  · intro i hi
    obtain rfl : i = 0 := by omega
    decide +kernel

theorem witness_TableChangeDuringALutOp : ∃ s : State, s.tblRace = true := ⟨{ base with tblRace := true }, rfl⟩

theorem witness_MapOpsFollowTheFormula :
    feq calibrated.mapT20 calibrated.mapT4 = false ∧ feq base.mapT20 base.mapT4 = true ∧
    feq 0x7FC00000 0x7FC00000 = false := by decide +kernel

/-- NaN, just below 4.0, just above 20.0, and the bounds themselves. -/
theorem witness_MapSetCurrentClamps :
    isNaN 0xFF812345#32 = true ∧ flt 0x407FFFFF 0x40800000 = true ∧ fgt 0x41A00001 0x41A00000 = true ∧
    (fge 0x40800000 0x40800000 = true ∧ fle 0x40800000 0x41A00000 = true) ∧
    (fge 0x41A00000 0x40800000 = true ∧ fle 0x41A00000 0x41A00000 = true) := by decide +kernel

theorem witness_CalcNeverDividesByZero : feq 0x42C80000 0xC3480000 = false ∧ feq 0x00000001 0x00000000 = false := by
  decide +kernel

theorem witness_CalcIsMonotoneInTheTemperature :
    (isFinite 0xC3480000#32 = true ∧ isFinite 0x42C80000#32 = true ∧ isFinite 0xC2480000#32 = true ∧ isFinite 0x00000000#32 = true) ∧
    isFinite (fsub 0x42C80000 0xC3480000) = true ∧ isFinite (fsub 0xC3480000 0x42C80000) = true ∧
    fle 0xC2480000 0x00000000 = true ∧ flt 0xC3480000 0x42C80000 = true := by decide +kernel

theorem witness_StepKeepsTheStateInvariants : ∃ s t : State, StateInv s ∧ step s = .next t := ⟨base, _, base_stateInv, rfl⟩

theorem witness_OpsLeaveOtherUnitsUnchanged :
    (∃ t, exec .medMaf full = .next t ∧ (t.rc == .ok) = true) ∧ BlockUnit.crc ≠ unitOf .medMaf ∧ BlockUnit.crc ≠ .med :=
  ⟨of_gives (p := fun t => t.rc == .ok) (by decide +kernel), by decide, by decide⟩

theorem witness_OpsReadOnlyTheirOwnUnit :
    ∃ (s s' t : State), s ≠ s' ∧ exec .medMaf s = .next t ∧ sameUnit (unitOf .medMaf) s s' ∧ samePlatform s s' ∧
      s.event = s'.event ∧ sameUnit .med s s' :=
  ⟨full, { full with crcAcc := 0x1234 }, _, fun h => absurd (congrArg State.crcAcc h) (by decide +kernel), rfl,
    ⟨rfl, rfl, rfl, rfl⟩, ⟨rfl, rfl, rfl, rfl⟩, rfl, rfl, rfl, rfl, rfl⟩

/-- `base` at clock grain, every op three clocks long. -/
def clocked : Clocked := ⟨base, none, true, 0, Vector.replicate 256 2⟩

/-- An edge with no op offered. -/
def idlePins : Pins := ⟨false, false, 0, []⟩

/-- An edge with no op offered at which the writer writes the table's last byte. -/
def writePins : Pins := ⟨false, false, 0, [(8199, 0x01#8)]⟩

theorem runTicks_next {ps : List Pins} {c : Clocked}
    (h : (match runTicks ps c with | .next _ => true | .fault _ => false | .refused _ => false) = true) :
    ∃ c', runTicks ps c = .next c' := by
  split at h
  · exact ⟨_, ‹_›⟩
  · cases h
  · cases h

/-- Latency 3, with the writer quiet and with a byte at the accepting edge and one after: the clock after the acceptance and
the next show an op in progress. -/
theorem witness_AcceptedOpCompletesAfterItsLatency :
    clocked.live = true ∧ clocked.flight = none ∧ (∀ p ∈ [writePins, idlePins], p.rst = false) ∧
    [writePins, idlePins].length + 1 = latency clocked (opField 0x41) ∧
    (∃ t, step { clocked.arch with inputs := .op 0x41 ([] ++ [idlePins, idlePins].flatMap Pins.tblWr) :: [] } = .next t) ∧
    (∃ m, applyWrites params tbl2 ([(0, 0x00#8)] ++ [writePins, idlePins].flatMap Pins.tblWr) = some m) ∧
    (∃ c', runTicks (⟨false, true, 0x41, [(0, 0x00#8)]⟩ :: [writePins, idlePins].take 0) clocked = .next c') ∧
    (∃ c', runTicks (⟨false, true, 0x41, [(0, 0x00#8)]⟩ :: [writePins, idlePins].take 1) clocked = .next c') ∧
    idlePins.rst = false ∧ idlePins.cmdValid = false ∧ idlePins.tblWr = [] :=
  ⟨rfl, rfl, by decide +kernel, by decide +kernel, ⟨_, rfl⟩, Option.isSome_iff_exists.mp (by decide +kernel),
    runTicks_next (by decide +kernel), runTicks_next (by decide +kernel), rfl, rfl, rfl⟩

/-- With an op in progress and bytes written since its acceptance and at the edge, and without either. -/
theorem witness_ResetEdgeAtAnyClock :
    (∃ (c : Clocked) (p : Pins) (m : Memory), p.rst = true ∧ c.flight ≠ none ∧
      applyWrites c.arch.params c.arch.tbl (c.flight.elim [] InFlight.written ++ p.tblWr) = some m) ∧
    ∃ (c : Clocked) (p : Pins) (m : Memory), p.rst = true ∧ c.flight = none ∧
      applyWrites c.arch.params c.arch.tbl (c.flight.elim [] InFlight.written ++ p.tblWr) = some m := by
  have h : applyWrites params tbl2 [(8199, 0x01#8), (0, 0x00#8)] = some ((tbl2.write 8199 0x01).write 0 0x00) := by
    decide +kernel
  exact ⟨⟨⟨full, some ⟨0x41, 3, [(8199, 0x01#8)]⟩, true, 7, Vector.replicate 256 2⟩, ⟨true, false, 0, [(0, 0x00#8)]⟩, _, rfl,
    by simp, h⟩, ⟨clocked, ⟨true, false, 0, []⟩, tbl2, rfl, rfl, rfl⟩⟩

/-- R55: the table port carries an address in `TBL_AW` bits, here 14. -/
theorem test_table_port :
    (tblAddr params 8199).toNat = 0x2007 ∧ tblRdata params tbl2 (tblAddr params 4) = 0x02 ∧
    tableNow ⟨full, some ⟨0x41, 3, [(8199, 0x01#8)]⟩, true, 7, Vector.replicate 256 2⟩ = tbl2.write 8199 0x01 := by
  decide +kernel

theorem witness_EventPulseEndsAndEarlyOpsAreRefused :
    idlePins.rst = false ∧ idlePins.tblWr = [] ∧ (clocked.live = true ∧ clocked.flight = none ∧ idlePins.cmdValid = false) ∧
    ((Clocked.powerUp base).live = false ∧ (⟨false, true, 0, []⟩ : Pins).cmdValid = true) :=
  ⟨rfl, rfl, ⟨rfl, rfl, rfl⟩, rfl, rfl⟩

end Sys2Proof.Tests
end

section
/-! Patterns as a sign and 31 magnitude bits (00_scope.md R10): every predicate and operation of the format is stated once in
these two terms, so that later proofs are arithmetic on `magBits`. -/

namespace Sys2Proof.Machine

/-- Bits 30:0 of a pattern: biased exponent and fraction as one number, ordered as the magnitudes are. -/
def magBits (x : B32) : Nat := (x.extractLsb' 0 31).toNat

theorem magBits_lt (x : B32) : magBits x < 2 ^ 31 := BitVec.isLt _

theorem magBits_eq_mod (x : B32) : magBits x = x.toNat % 2 ^ 31 := by simp [magBits]

theorem getLsbD_31 (x : B32) : x.getLsbD 31 = signBit x := rfl

theorem toNat_eq_sign_mag (x : B32) : x.toNat = (signBit x).toNat * 2 ^ 31 + magBits x := by
  have hx := x.isLt
  rw [magBits_eq_mod, signBit, BitVec.getLsbD, Nat.testBit_eq_decide_div_mod_eq]
  by_cases hb : x.toNat / 2 ^ 31 % 2 = 1
  · simp only [hb, decide_true, Bool.toNat_true]
    omega
  · simp only [hb, decide_false, Bool.toNat_false]
    omega

theorem toNat_lt_iff_of_sign {x y : B32} (h : signBit x = signBit y) : x.toNat < y.toNat ↔ magBits x < magBits y := by
  rw [toNat_eq_sign_mag x, toNat_eq_sign_mag y, h, Nat.add_lt_add_iff_left]

theorem eq_of_sign_mag {x y : B32} (hs : signBit x = signBit y) (hm : magBits x = magBits y) : x = y :=
  BitVec.eq_of_toNat_eq (by rw [toNat_eq_sign_mag, toNat_eq_sign_mag, hs, hm])

theorem expField_eq (x : B32) : expField x = magBits x / 2 ^ 23 := by
  rw [magBits_eq_mod, expField, BitVec.extractLsb'_toNat, Nat.shiftRight_eq_div_pow]
  omega

theorem fracField_eq (x : B32) : fracField x = magBits x % 2 ^ 23 := by
  rw [magBits_eq_mod, fracField, BitVec.extractLsb'_toNat, Nat.shiftRight_zero]
  omega

theorem getLsbD_zero (x : B32) : x.getLsbD 0 = decide (magBits x % 2 = 1) := by
  rw [magBits_eq_mod, BitVec.getLsbD, Nat.testBit_zero, Nat.mod_mod_of_dvd _ (by decide)]

theorem rank_eq (x : B32) : rank x = if signBit x then -(magBits x : Int) else magBits x := rfl

theorem rank_of_pos {x : B32} (h : signBit x = false) : rank x = magBits x := by rw [rank_eq, h, if_neg Bool.false_ne_true]

theorem rank_of_neg {x : B32} (h : signBit x = true) : rank x = -(magBits x : Int) := by rw [rank_eq, h, if_pos rfl]

/-! The classes of R10, by magnitude bits. -/

theorem isNaN_iff {x : B32} : isNaN x = true ↔ 0x7F800000 < magBits x := by
  have := magBits_lt x
  simp only [isNaN, expField_eq, fracField_eq, Bool.and_eq_true, beq_iff_eq, bne_iff_ne]
  omega

theorem isNaN_eq_false_iff {x : B32} : isNaN x = false ↔ magBits x ≤ 0x7F800000 := by
  rw [← Bool.not_eq_true, isNaN_iff, not_lt]

theorem isInf_iff {x : B32} : isInf x = true ↔ magBits x = 0x7F800000 := by
  have := magBits_lt x
  simp only [isInf, expField_eq, fracField_eq, Bool.and_eq_true, beq_iff_eq]
  omega

theorem isFinite_iff {x : B32} : isFinite x = true ↔ magBits x < 0x7F800000 := by
  have := magBits_lt x
  simp only [isFinite, expField_eq, bne_iff_ne]
  omega

theorem isZero_iff {x : B32} : isZero x = true ↔ magBits x = 0 := by
  simp only [isZero, expField_eq, fracField_eq, Bool.and_eq_true, beq_iff_eq]
  omega

theorem isNaN_of_isFinite {x : B32} (h : isFinite x = true) : isNaN x = false :=
  isNaN_eq_false_iff.mpr (isFinite_iff.mp h).le

theorem isInf_of_isFinite {x : B32} (h : isFinite x = true) : isInf x = false :=
  Bool.eq_false_iff.mpr fun hi => (isFinite_iff.mp h).ne (isInf_iff.mp hi)

theorem isNaN_of_isInf {x : B32} (h : isInf x = true) : isNaN x = false :=
  isNaN_eq_false_iff.mpr (isInf_iff.mp h).le

theorem isZero_of_isInf {x : B32} (h : isInf x = true) : isZero x = false :=
  Bool.eq_false_iff.mpr fun hz => by have := isInf_iff.mp h; have := isZero_iff.mp hz; omega

/-! Patterns built from a sign and a magnitude. -/

theorem toNat_withSign (neg : Bool) {m : Nat} (hm : m < 2 ^ 31) : (withSign neg m).toNat = neg.toNat * 2 ^ 31 + m := by
  have hlt : m % 2 ^ 32 = m := Nat.mod_eq_of_lt (by omega)
  cases neg
  · simpa [withSign] using hlt
  · simp only [withSign, if_true, BitVec.toNat_or, BitVec.toNat_ofNat, hlt, nZero]
    simpa [Nat.or_comm] using (Nat.two_pow_add_eq_or_of_lt hm 1).symm

theorem withSign_self (x : B32) : withSign (signBit x) (magBits x) = x :=
  BitVec.eq_of_toNat_eq ((toNat_withSign _ (magBits_lt x)).trans (toNat_eq_sign_mag x).symm)

theorem magBits_withSign (neg : Bool) {m : Nat} (hm : m < 2 ^ 31) : magBits (withSign neg m) = m := by
  rw [magBits_eq_mod, toNat_withSign neg hm]
  omega

theorem signBit_withSign (neg : Bool) {m : Nat} (hm : m < 2 ^ 31) : signBit (withSign neg m) = neg := by
  have h := toNat_eq_sign_mag (withSign neg m)
  rw [toNat_withSign neg hm, magBits_withSign neg hm] at h
  generalize signBit (withSign neg m) = s at h ⊢
  cases neg <;> cases s <;> simp at h ⊢

theorem withSign_zero (neg : Bool) : withSign neg 0 = if neg then nZero else pZero := by cases neg <;> rfl

theorem withSign_inf (neg : Bool) : withSign neg pInf.toNat = if neg then nInf else pInf := by cases neg <;> rfl

/-- The two patterns with a given magnitude. -/
theorem eq_withSign_iff {x : B32} {neg : Bool} {m : Nat} (hm : m < 2 ^ 31) :
    x = withSign neg m ↔ signBit x = neg ∧ magBits x = m := by
  constructor
  · rintro rfl
    exact ⟨signBit_withSign neg hm, magBits_withSign neg hm⟩
  · rintro ⟨rfl, rfl⟩
    exact (withSign_self x).symm

theorem eq_pZero_iff {x : B32} : x = pZero ↔ signBit x = false ∧ magBits x = 0 :=
  eq_withSign_iff (m := 0) (neg := false) (by decide)

theorem eq_nZero_iff {x : B32} : x = nZero ↔ signBit x = true ∧ magBits x = 0 :=
  eq_withSign_iff (m := 0) (neg := true) (by decide)

theorem eq_pInf_iff {x : B32} : x = pInf ↔ signBit x = false ∧ magBits x = 0x7F800000 :=
  eq_withSign_iff (m := 0x7F800000) (neg := false) (by decide)

theorem eq_nInf_iff {x : B32} : x = nInf ↔ signBit x = true ∧ magBits x = 0x7F800000 :=
  eq_withSign_iff (m := 0x7F800000) (neg := true) (by decide)

theorem magBits_negPattern (x : B32) : magBits (negPattern x) = magBits x := by
  have h : (nZero.extractLsb' 0 31) = 0 := rfl
  simp [magBits, negPattern, BitVec.extractLsb'_xor, h]

theorem signBit_negPattern (x : B32) : signBit (negPattern x) = !signBit x := by
  have h : nZero.getLsbD 31 = true := rfl
  rw [signBit, negPattern, BitVec.getLsbD_xor, h, Bool.xor_true]
  rfl

/-! The key (R14). -/

theorem key_toNat (x : B32) : (key x).toNat = if signBit x then 0xFFFFFFFF - x.toNat else x.toNat + 0x80000000 := by
  have hm := magBits_lt x
  have hx := toNat_eq_sign_mag x
  unfold key
  cases hs : signBit x
  · rw [hs, Bool.toNat_false] at hx
    rw [if_neg Bool.false_ne_true, if_neg Bool.false_ne_true, BitVec.toNat_add, BitVec.toNat_ofNat]
    omega
  · rw [if_pos rfl, if_pos rfl]
    exact BitVec.toNat_sub_of_le (BitVec.le_def.mpr (by have := x.isLt; rw [BitVec.toNat_ofNat]; omega))

/-- The keys of the patterns with a clear sign bit fill the upper half upwards. -/
theorem key_of_pos {x : B32} (h : signBit x = false) : (key x).toNat = 2 ^ 31 + magBits x := by
  rw [key_toNat, h, if_neg Bool.false_ne_true, toNat_eq_sign_mag, h, Bool.toNat_false]
  omega

/-- The keys of the patterns with a set sign bit fill the lower half downwards. -/
theorem key_of_neg {x : B32} (h : signBit x = true) : (key x).toNat = 2 ^ 31 - 1 - magBits x := by
  rw [key_toNat, h, if_pos rfl, toNat_eq_sign_mag, h, Bool.toNat_true]
  omega

/-- A pattern with a set sign bit comes before one with a clear one. -/
theorem key_lt_of_neg_of_pos {x y : B32} (hx : signBit x = true) (hy : signBit y = false) :
    (key x).toNat < (key y).toNat := by
  rw [key_of_neg hx, key_of_pos hy]
  omega

theorem key_lt_iff_of_pos {x y : B32} (hx : signBit x = false) (hy : signBit y = false) :
    (key x).toNat < (key y).toNat ↔ magBits x < magBits y := by
  rw [key_of_pos hx, key_of_pos hy]
  omega

theorem key_lt_iff_of_neg {x y : B32} (hx : signBit x = true) (hy : signBit y = true) :
    (key x).toNat < (key y).toNat ↔ magBits y < magBits x := by
  have := magBits_lt x
  have := magBits_lt y
  rw [key_of_neg hx, key_of_neg hy]
  omega

/-- Where the ranks tell two patterns apart the keys agree with them. -/
theorem key_lt_of_rank_lt {x y : B32} (h : rank x < rank y) : (key x).toNat < (key y).toNat := by
  cases hx : signBit x <;> cases hy : signBit y
  case false.false =>
    rw [rank_of_pos hx, rank_of_pos hy] at h
    exact (key_lt_iff_of_pos hx hy).mpr (by omega)
  case false.true =>
    rw [rank_of_pos hx, rank_of_neg hy] at h
    omega
  case true.false => exact key_lt_of_neg_of_pos hx hy
  case true.true =>
    rw [rank_of_neg hx, rank_of_neg hy] at h
    exact (key_lt_iff_of_neg hx hy).mpr (by omega)

theorem key_injective {x y : B32} (h : key x = key y) : x = y := by
  have hlt : ¬ (key x).toNat < (key y).toNat := by rw [h]; exact lt_irrefl _
  have hgt : ¬ (key y).toNat < (key x).toNat := by rw [h]; exact lt_irrefl _
  cases hx : signBit x <;> cases hy : signBit y
  case false.false =>
    rw [key_lt_iff_of_pos hx hy] at hlt
    rw [key_lt_iff_of_pos hy hx] at hgt
    exact eq_of_sign_mag (hx.trans hy.symm) (by omega)
  case false.true => exact absurd (key_lt_of_neg_of_pos hy hx) hgt
  case true.false => exact absurd (key_lt_of_neg_of_pos hx hy) hlt
  case true.true =>
    rw [key_lt_iff_of_neg hx hy] at hlt
    rw [key_lt_iff_of_neg hy hx] at hgt
    exact eq_of_sign_mag (hx.trans hy.symm) (by omega)

end Sys2Proof.Machine
end

section
/-! The values in the order of the patterns (00_scope.md R10, R13): `rankValue` carries the rank of a finite pattern to its
value, strictly rising, so that comparing patterns is comparing ranks. -/

namespace Sys2Proof.Machine

/-- The magnitude that magnitude bits `m` stand for, in units of 2^-149, on a grid that goes on where the format ends with its
infinities: the first two exponents share the finest spacing, each later one doubles it. -/
def gridUnits (m : Nat) : Nat := (m - (m / 2 ^ 23 - 1) * 2 ^ 23) * 2 ^ (m / 2 ^ 23 - 1)

/-- With `sh` the exponent above the finest spacing, a significand `q` of 24 bits, or one past the largest, stands for
`q` steps of `2 ^ sh` units. -/
theorem gridUnits_of_significand {sh q : Nat} (hlo : sh = 0 ∨ 2 ^ 23 ≤ q) (hhi : q ≤ 2 ^ 24) :
    gridUnits (sh * 2 ^ 23 + q) = q * 2 ^ sh := by
  rcases hhi.eq_or_lt with rfl | hlt
  · have hexp : (sh * 2 ^ 23 + 2 ^ 24) / 2 ^ 23 - 1 = sh + 1 := by omega
    have hsig : sh * 2 ^ 23 + 2 ^ 24 - (sh + 1) * 2 ^ 23 = 2 ^ 23 := by omega
    rw [gridUnits, hexp, hsig]
    ring
  · have hexp : (sh * 2 ^ 23 + q) / 2 ^ 23 - 1 = sh := by omega
    rw [gridUnits, hexp, Nat.add_sub_cancel_left]

theorem exists_significand (m : Nat) : ∃ sh q, m = sh * 2 ^ 23 + q ∧ (sh = 0 ∨ 2 ^ 23 ≤ q) ∧ q < 2 ^ 24 :=
  ⟨m / 2 ^ 23 - 1, m - (m / 2 ^ 23 - 1) * 2 ^ 23, by omega, by omega, by omega⟩

theorem gridUnits_strictMono : StrictMono gridUnits := by
  refine strictMono_nat_of_lt_succ fun m => ?_
  obtain ⟨sh, q, rfl, hlo, hhi⟩ := exists_significand m
  have hlo' : sh = 0 ∨ 2 ^ 23 ≤ q + 1 := by omega
  calc gridUnits (sh * 2 ^ 23 + q) = q * 2 ^ sh := gridUnits_of_significand hlo hhi.le
    _ < (q + 1) * 2 ^ sh := Nat.mul_lt_mul_of_pos_right q.lt_succ_self (by positivity)
    _ = gridUnits (sh * 2 ^ 23 + q + 1) := by rw [Nat.add_assoc, gridUnits_of_significand hlo' hhi]

theorem magUnits_eq (x : B32) : magUnits x = gridUnits (magBits x) := by
  rw [magUnits, expField_eq, fracField_eq, gridUnits]
  split
  · next h =>
    rw [h, Nat.zero_sub, Nat.zero_mul, Nat.sub_zero, pow_zero, Nat.mul_one]
    omega
  · next h =>
    congr 1
    omega

/-- The value that stands at place `k` of the order of R13, of either sign. -/
def rankValue (k : Int) : ℚ := (k.sign * gridUnits k.natAbs : Int) / 2 ^ 149

theorem rankValue_zero : rankValue 0 = 0 := by
  rw [rankValue, Int.sign_zero, zero_mul, Int.cast_zero, zero_div]

theorem rankValue_natCast (m : Nat) : rankValue m = (gridUnits m : ℚ) / 2 ^ 149 := by
  rcases m.eq_zero_or_pos with rfl | h
  · rw [Nat.cast_zero, rankValue_zero, show gridUnits 0 = 0 from rfl, Nat.cast_zero, zero_div]
  · rw [rankValue, Int.sign_natCast_of_ne_zero h.ne', Int.natAbs_natCast, one_mul, Int.cast_natCast]

theorem rankValue_neg (k : Int) : rankValue (-k) = -rankValue k := by
  simp [rankValue, neg_div]

theorem rankValue_strictMono : StrictMono rankValue := by
  refine strictMono_of_odd_strictMonoOn_nonneg rankValue_neg fun a ha b hb hab => ?_
  obtain ⟨m, rfl⟩ := Int.eq_ofNat_of_zero_le (Set.mem_Ici.mp ha)
  obtain ⟨n, rfl⟩ := Int.eq_ofNat_of_zero_le (Set.mem_Ici.mp hb)
  rw [rankValue_natCast, rankValue_natCast]
  have : (gridUnits m : ℚ) < gridUnits n := Nat.cast_lt.mpr (gridUnits_strictMono (Int.ofNat_lt.mp hab))
  gcongr

/-- A value is that of its rank: the two zeros share one place. -/
theorem value_eq_rankValue (x : B32) : value x = rankValue (rank x) := by
  rw [value, Rat.mkRat_eq_div, rank_eq, magUnits_eq]
  cases signBit x
  · rw [if_neg Bool.false_ne_true, if_neg Bool.false_ne_true, rankValue_natCast, Int.cast_natCast, Nat.cast_pow,
      Nat.cast_ofNat]
  · rw [if_pos rfl, if_pos rfl, rankValue_neg, rankValue_natCast, Int.cast_neg, Int.cast_natCast, neg_div, Nat.cast_pow,
      Nat.cast_ofNat]

theorem value_lt_iff {x y : B32} : value x < value y ↔ rank x < rank y := by
  rw [value_eq_rankValue, value_eq_rankValue, rankValue_strictMono.lt_iff_lt]

theorem value_le_iff {x y : B32} : value x ≤ value y ↔ rank x ≤ rank y := by
  rw [value_eq_rankValue, value_eq_rankValue, rankValue_strictMono.le_iff_le]

theorem value_eq_iff {x y : B32} : value x = value y ↔ rank x = rank y := by
  rw [value_eq_rankValue, value_eq_rankValue, rankValue_strictMono.injective.eq_iff]

theorem value_neg_iff {x : B32} : value x < 0 ↔ rank x < 0 := by
  rw [value_eq_rankValue, ← rankValue_zero, rankValue_strictMono.lt_iff_lt]

theorem value_eq_zero_iff {x : B32} : value x = 0 ↔ magBits x = 0 := by
  rw [value_eq_rankValue, ← rankValue_zero, rankValue_strictMono.injective.eq_iff, rank_eq]
  split <;> omega

theorem value_neg_iff_signBit {x : B32} (h : value x ≠ 0) : value x < 0 ↔ signBit x = true := by
  have hm : magBits x ≠ 0 := mt value_eq_zero_iff.mpr h
  rw [value_neg_iff, rank_eq]
  cases signBit x
  · simp
  · simp; omega

theorem rank_withSign (neg : Bool) {m : Nat} (hm : m < 2 ^ 31) : rank (withSign neg m) = if neg then -(m : Int) else m := by
  rw [rank_eq, signBit_withSign neg hm, magBits_withSign neg hm]

theorem rank_negPattern (x : B32) : rank (negPattern x) = -rank x := by
  rw [rank_eq, rank_eq, magBits_negPattern, signBit_negPattern]
  cases signBit x <;> simp

theorem value_negPattern (x : B32) : value (negPattern x) = -value x := by
  rw [value_eq_rankValue, value_eq_rankValue, rank_negPattern, rankValue_neg]

end Sys2Proof.Machine
end

section
/-! Rounding (00_scope.md R15): `round32` picks the place of the order whose value is nearest, ties to the even one. -/

namespace Sys2Proof.Machine

/-- Place `r` is nearest to `q` in the order of values, and even if another place is as near. -/
def NearestEven (q : ℚ) (r : Int) : Prop :=
  ∀ k : Int, |rankValue r - q| ≤ |rankValue k - q| ∧ (|rankValue r - q| = |rankValue k - q| → k ≠ r → Even r)

theorem NearestEven.neg {q : ℚ} {r : Int} (h : NearestEven q r) : NearestEven (-q) (-r) := by
  have mirror : ∀ k, |rankValue (-k) - -q| = |rankValue k - q| := fun k => by
    rw [rankValue_neg, ← neg_sub', abs_neg]
  intro k
  obtain ⟨hle, heven⟩ := h (-k)
  rw [← mirror, ← mirror (-k), neg_neg] at hle heven
  exact ⟨hle, fun he hk => (heven he (by omega)).neg⟩

/-- Of two neighbours around `q`, the one that is no further from it than either, and even if both are as far. -/
theorem nearestEven_of_between {q : ℚ} {a r : Int} (hr : r = a ∨ r = a + 1)
    (hlo : |rankValue r - q| ≤ q - rankValue a) (hhi : |rankValue r - q| ≤ rankValue (a + 1) - q)
    (heven : q - rankValue a = rankValue (a + 1) - q → Even r) : NearestEven q r := by
  have ha : rankValue a ≤ q := sub_nonneg.mp ((abs_nonneg _).trans hlo)
  have ha1 : q ≤ rankValue (a + 1) := sub_nonneg.mp ((abs_nonneg _).trans hhi)
  intro k
  rcases le_or_gt k a with hk | hk
  · have hka : rankValue k ≤ rankValue a := rankValue_strictMono.monotone hk
    have hdist : |rankValue k - q| = q - rankValue k := by rw [abs_sub_comm, abs_of_nonneg (by linarith)]
    refine ⟨by linarith, fun he hne => ?_⟩
    obtain rfl : k = a := rankValue_strictMono.injective (by linarith)
    obtain rfl : r = k + 1 := by omega
    rw [abs_of_nonneg (by linarith)] at hlo he
    exact heven (by linarith)
  · have hka : rankValue (a + 1) ≤ rankValue k := rankValue_strictMono.monotone hk
    have hdist : |rankValue k - q| = rankValue k - q := abs_of_nonneg (by linarith)
    refine ⟨by linarith, fun he hne => ?_⟩
    obtain rfl : k = a + 1 := rankValue_strictMono.injective (by linarith)
    obtain rfl : r = a := by omega
    rw [abs_sub_comm, abs_of_nonneg (by linarith)] at he
    exact heven (by linarith)

/-- Rounding by a remainder `r` of `den`: up when it is more than half, or half on an odd place. -/
theorem nearestEven_of_remainder {q c : ℚ} {a r den : Nat} (hc : 0 < c) (hr : r ≤ den)
    (hdown : q - rankValue a = r / c) (hup : rankValue (a + 1 : Nat) - q = (den - r) / c) :
    NearestEven q (if den < 2 * r ∨ (2 * r = den ∧ a % 2 = 1) then a + 1 else a : Nat) := by
  have hr' : (r : ℚ) ≤ den := Nat.cast_le.mpr hr
  have htie : q - rankValue a = rankValue (a + 1 : Nat) - q → 2 * r = den := fun he => by
    rw [hdown, hup, div_left_inj' hc.ne'] at he
    have : (2 * r : ℚ) = den := by linarith
    exact_mod_cast this
  split
  · next hgt =>
    have hhalf : (den - r : ℚ) ≤ r := by
      have : (den : ℚ) ≤ 2 * r := by exact_mod_cast (show den ≤ 2 * r by omega)
      linarith
    have hdist : |rankValue (a + 1 : Nat) - q| = (den - r) / c := by
      rw [hup, abs_of_nonneg (div_nonneg (by linarith) hc.le)]
    refine nearestEven_of_between (a := a) (.inr (by push_cast; rfl)) ?_ ?_ fun he => ?_
    · rw [hdist, hdown]
      gcongr
    · exact (hdist.trans hup.symm).le
    · have := htie he
      exact Int.even_coe_nat _ |>.mpr (Nat.even_iff.mpr (by omega))
  · next hle =>
    have hhalf : (r : ℚ) ≤ den - r := by
      have : (2 * r : ℚ) ≤ den := by exact_mod_cast (show 2 * r ≤ den by omega)
      linarith
    have hdist : |rankValue a - q| = r / c := by
      rw [abs_sub_comm, hdown, abs_of_nonneg (div_nonneg (Nat.cast_nonneg r) hc.le)]
    refine nearestEven_of_between (a := a) (.inl rfl) ?_ ?_ fun he => ?_
    · exact (hdist.trans hdown.symm).le
    · refine (hdist.trans_le ?_).trans_eq hup.symm
      gcongr
    · have := htie he
      exact Int.even_coe_nat _ |>.mpr (Nat.even_iff.mpr (by omega))

/-- `roundMag` on a grid that has no end. -/
def roundMagUnbounded (n d : Nat) : Nat :=
  let sh := Nat.log2 (n / d) - 23
  let den := d * 2 ^ sh
  let q := n / den
  let r := n % den
  sh * 2 ^ 23 + if den < 2 * r ∨ (2 * r = den ∧ q % 2 = 1) then q + 1 else q

theorem roundMag_eq_min (n d : Nat) : roundMag n d = min (roundMagUnbounded n d) 0x7F800000 := rfl

theorem roundMag_lt (n d : Nat) : roundMag n d < 2 ^ 31 := by
  rw [roundMag_eq_min]
  omega

/-- A number cut to 24 bits has its top bit set, or was not cut. -/
theorem significand_bounds (t : Nat) :
    (Nat.log2 t - 23 = 0 ∨ 2 ^ 23 ≤ t / 2 ^ (Nat.log2 t - 23)) ∧ t / 2 ^ (Nat.log2 t - 23) < 2 ^ 24 := by
  have hlt : t < 2 ^ (Nat.log2 t + 1) := Nat.lt_log2_self
  constructor
  · by_cases hs : Nat.log2 t - 23 = 0
    · exact .inl hs
    · have ht : t ≠ 0 := by rintro rfl; exact hs rfl
      refine .inr ((Nat.le_div_iff_mul_le (by positivity)).mpr ?_)
      rw [← pow_add, show 23 + (Nat.log2 t - 23) = Nat.log2 t by omega]
      exact Nat.log2_self_le ht
  · refine (Nat.div_lt_iff_lt_mul (by positivity)).mpr (hlt.trans_le ?_)
    rw [← pow_add]
    exact Nat.pow_le_pow_right (by decide) (by omega)

/-- The place that the rounding down to 24 bits has in the order. -/
theorem rankValue_significand {sh q : Nat} (hlo : sh = 0 ∨ 2 ^ 23 ≤ q) (hhi : q ≤ 2 ^ 24) :
    rankValue (sh * 2 ^ 23 + q : Nat) = (q : ℚ) * 2 ^ sh / 2 ^ 149 := by
  rw [rankValue_natCast, gridUnits_of_significand hlo hhi, Nat.cast_mul, Nat.cast_pow, Nat.cast_ofNat]

theorem nearestEven_roundMagUnbounded (n : Nat) {d : Nat} (hd : 0 < d) :
    NearestEven ((n : ℚ) / d / 2 ^ 149) (roundMagUnbounded n d) := by
  obtain ⟨hlo, hhi⟩ := significand_bounds (n / d)
  rw [Nat.div_div_eq_div_mul] at hlo hhi
  unfold roundMagUnbounded
  generalize Nat.log2 (n / d) - 23 = sh at *
  have hsplit : d * 2 ^ sh * (n / (d * 2 ^ sh)) + n % (d * 2 ^ sh) = n := Nat.div_add_mod _ _
  have hrem : n % (d * 2 ^ sh) ≤ d * 2 ^ sh := (Nat.mod_lt _ (by positivity)).le
  simp only
  generalize n / (d * 2 ^ sh) = q at *
  generalize n % (d * 2 ^ sh) = r at *
  have hd' : (0 : ℚ) < d := Nat.cast_pos.mpr hd
  have hplace : (sh * 2 ^ 23 + if d * 2 ^ sh < 2 * r ∨ (2 * r = d * 2 ^ sh ∧ q % 2 = 1) then q + 1 else q) =
      if d * 2 ^ sh < 2 * r ∨ (2 * r = d * 2 ^ sh ∧ (sh * 2 ^ 23 + q) % 2 = 1) then sh * 2 ^ 23 + q + 1
      else sh * 2 ^ 23 + q := by
    rw [show (sh * 2 ^ 23 + q) % 2 = q % 2 by omega]
    split
    · exact (Nat.add_assoc _ _ _).symm
    · rfl
  rw [hplace]
  refine nearestEven_of_remainder (c := d * 2 ^ 149) (by positivity) hrem ?_ ?_
  · rw [rankValue_significand hlo hhi.le, ← hsplit]
    push_cast
    field_simp
    ring
  · rw [Nat.add_assoc, rankValue_significand (by omega) hhi, ← hsplit]
    push_cast
    field_simp
    ring

/-! The overflow bound of R15 is the midpoint between the largest finite value and the place after it. -/

theorem rankValue_maxFinite : rankValue 0x7F7FFFFF = 2 ^ 128 - 2 ^ 104 := by
  have h := rankValue_significand (sh := 253) (q := 2 ^ 24 - 1) (.inr (by decide)) (by decide)
  rw [show ((253 * 2 ^ 23 + (2 ^ 24 - 1) : Nat) : Int) = 0x7F7FFFFF by decide] at h
  rw [h]
  norm_num

theorem rankValue_inf : rankValue (0x7F7FFFFF + 1) = 2 ^ 128 := by
  have h := rankValue_significand (sh := 254) (q := 2 ^ 23) (.inr le_rfl) (by decide)
  rw [show ((254 * 2 ^ 23 + 2 ^ 23 : Nat) : Int) = 0x7F7FFFFF + 1 by decide] at h
  rw [h]
  norm_num

/-- Below a midpoint nothing rounds past it. -/
theorem NearestEven.le_of_lt_midpoint {q : ℚ} {r k : Int} (h : NearestEven q r)
    (hq : 2 * q < rankValue k + rankValue (k + 1)) : r ≤ k := by
  by_contra hr
  have hmono : rankValue (k + 1) ≤ rankValue r := rankValue_strictMono.monotone (by omega)
  have hstep : rankValue k < rankValue (k + 1) := rankValue_strictMono (lt_add_one k)
  have hdist : rankValue r - q ≤ |rankValue k - q| := (le_abs_self _).trans (h k).1
  rcases abs_cases (rankValue k - q) with ⟨he, _⟩ | ⟨he, _⟩ <;> rw [he] at hdist <;> linarith

/-- From the midpoint above an odd place on, everything rounds past it. -/
theorem NearestEven.lt_of_midpoint_le {q : ℚ} {r k : Int} (h : NearestEven q r) (hk : ¬ Even k)
    (hq : rankValue k + rankValue (k + 1) ≤ 2 * q) : k < r := by
  by_contra hr
  have hmono : rankValue r ≤ rankValue k := rankValue_strictMono.monotone (by omega)
  have hstep : rankValue k < rankValue (k + 1) := rankValue_strictMono (lt_add_one k)
  have hr_abs : |rankValue r - q| = q - rankValue r := by rw [abs_sub_comm, abs_of_nonneg (by linarith)]
  obtain ⟨hle, heven⟩ := h (k + 1)
  rw [hr_abs] at hle heven
  rcases abs_cases (rankValue (k + 1) - q) with ⟨he, _⟩ | ⟨he, _⟩ <;> rw [he] at hle heven
  · obtain rfl : r = k := rankValue_strictMono.injective (by linarith)
    exact hk (heven (by linarith) (by omega))
  · linarith

/-- The place nearest to the magnitude of `q`. -/
def nearestMag (q : ℚ) : Nat := roundMagUnbounded (q.num.natAbs * 2 ^ 149) q.den

theorem nearestEven_nearestMag (q : ℚ) : NearestEven |q| (nearestMag q) := by
  have h := nearestEven_roundMagUnbounded (q.num.natAbs * 2 ^ 149) q.den_pos
  rw [Nat.cast_mul, Nat.cast_pow, Nat.cast_ofNat, mul_div_right_comm, mul_div_cancel_right₀ _ (by positivity)] at h
  rwa [Rat.abs_def, Rat.divInt_eq_div, Int.cast_natCast, Int.cast_natCast]

theorem nearestMag_lt_of_abs_lt {q : ℚ} (hq : |q| < 2 ^ 128 - 2 ^ 103) : nearestMag q < 0x7F800000 := by
  have h : (nearestMag q : Int) ≤ 0x7F7FFFFF :=
    (nearestEven_nearestMag q).le_of_lt_midpoint (by rw [rankValue_maxFinite, rankValue_inf]; linarith)
  omega

theorem le_nearestMag_of_le_abs {q : ℚ} (hq : 2 ^ 128 - 2 ^ 103 ≤ |q|) : 0x7F800000 ≤ nearestMag q := by
  have h : 0x7F7FFFFF < (nearestMag q : Int) :=
    (nearestEven_nearestMag q).lt_of_midpoint_le (by decide) (by rw [rankValue_maxFinite, rankValue_inf]; linarith)
  omega

/-! `round32`, said once: its finite results are nearest, its other results are the infinities. -/

theorem roundSigned_eq (neg : Bool) (q : ℚ) : roundSigned neg q = withSign neg (min (nearestMag q) 0x7F800000) := rfl

theorem magBits_roundSigned (neg : Bool) (q : ℚ) : magBits (roundSigned neg q) = min (nearestMag q) 0x7F800000 :=
  magBits_withSign neg (roundMag_lt _ _)

/-- Rounding gives no NaN. -/
theorem isNaN_roundSigned (neg : Bool) (q : ℚ) : isNaN (roundSigned neg q) = false :=
  isNaN_eq_false_iff.mpr (by rw [magBits_roundSigned]; exact min_le_right _ _)

theorem round32_eq_withSign {q : ℚ} (hq : |q| < 2 ^ 128 - 2 ^ 103) :
    round32 q = withSign (decide (q < 0)) (nearestMag q) := by
  rw [round32, roundSigned_eq, min_eq_left (nearestMag_lt_of_abs_lt hq).le]

theorem isFinite_round32 {q : ℚ} (hq : |q| < 2 ^ 128 - 2 ^ 103) : isFinite (round32 q) = true := by
  have h := nearestMag_lt_of_abs_lt hq
  rw [isFinite_iff, round32_eq_withSign hq, magBits_withSign _ (by omega)]
  exact h

theorem nearestEven_round32 {q : ℚ} (hq : |q| < 2 ^ 128 - 2 ^ 103) : NearestEven q (rank (round32 q)) := by
  have hlt := nearestMag_lt_of_abs_lt hq
  have h := nearestEven_nearestMag q
  rw [round32_eq_withSign hq, rank_withSign _ (by omega)]
  rcases lt_or_ge q 0 with hneg | hpos
  · rw [abs_of_neg hneg] at h
    simpa [hneg] using h.neg
  · rw [abs_of_nonneg hpos] at h
    simpa [hpos.not_gt] using h

/-- R15 of a finite result, in patterns: nearest among the finite patterns, and even in a tie. -/
theorem round32_nearest {q : ℚ} (hq : |q| < 2 ^ 128 - 2 ^ 103) (y : B32) :
    |value (round32 q) - q| ≤ |value y - q| ∧
    (|value (round32 q) - q| = |value y - q| → value y ≠ value (round32 q) → (round32 q).getLsbD 0 = false) := by
  obtain ⟨hle, heven⟩ := nearestEven_round32 hq (rank y)
  rw [← value_eq_rankValue, ← value_eq_rankValue] at hle heven
  refine ⟨hle, fun he hne => ?_⟩
  have hr : Even (rank (round32 q)) := heven he (mt value_eq_iff.mpr hne)
  rw [rank_eq] at hr
  rw [getLsbD_zero, decide_eq_false_iff_not]
  split at hr
  · rw [even_neg, Int.even_coe_nat, Nat.even_iff] at hr
    omega
  · rw [Int.even_coe_nat, Nat.even_iff] at hr
    omega

theorem round32_of_overflow {q : ℚ} (hq : 2 ^ 128 - 2 ^ 103 ≤ |q|) :
    round32 q = if q < 0 then nInf else pInf := by
  rw [round32, roundSigned_eq, min_eq_right (le_nearestMag_of_le_abs hq)]
  by_cases h : q < 0
  · rw [decide_eq_true h, if_pos h]; rfl
  · rw [decide_eq_false h, if_neg h]; rfl

/-- Where the exact result is not zero, its sign is the sign of the rounded one. -/
theorem roundSigned_eq_round32 {neg : Bool} {q : ℚ} (h : q < 0 ↔ neg = true) : roundSigned neg q = round32 q := by
  rw [round32, decide_eq_decide.mpr h, Bool.decide_coe]

theorem nearestMag_zero : nearestMag 0 = 0 := by
  have h := (nearestEven_nearestMag 0 0).1
  rw [rankValue_zero, abs_zero, sub_zero, sub_zero, abs_zero, abs_nonpos_iff] at h
  exact Int.natCast_eq_zero.mp (rankValue_strictMono.injective (h.trans rankValue_zero.symm))

theorem roundSigned_zero (neg : Bool) : roundSigned neg 0 = if neg then nZero else pZero := by
  rw [roundSigned_eq, nearestMag_zero, Nat.zero_min, withSign_zero]

theorem round32_zero : round32 0 = pZero := by
  rw [round32, roundSigned_zero]
  rfl

end Sys2Proof.Machine
end

section
/-! The four operations (00_scope.md R11, R12), class by class: a NaN, finite operands, an infinity on either side or both. -/

namespace Sys2Proof.Machine

section
variable {x y : B32}

theorem isInf_iff_eq : isInf x = true ↔ x = pInf ∨ x = nInf := by
  rw [isInf_iff, eq_pInf_iff, eq_nInf_iff]
  cases signBit x <;> simp

/-! Turning the sign over keeps the class. -/

theorem isNaN_negPattern (x : B32) : isNaN (negPattern x) = isNaN x :=
  Bool.eq_iff_iff.mpr (by rw [isNaN_iff, isNaN_iff, magBits_negPattern])

theorem isInf_negPattern (x : B32) : isInf (negPattern x) = isInf x :=
  Bool.eq_iff_iff.mpr (by rw [isInf_iff, isInf_iff, magBits_negPattern])

theorem isFinite_negPattern (x : B32) : isFinite (negPattern x) = isFinite x :=
  Bool.eq_iff_iff.mpr (by rw [isFinite_iff, isFinite_iff, magBits_negPattern])

theorem negPattern_eq_nZero_iff : negPattern x = nZero ↔ x = pZero := by
  rw [eq_nZero_iff, eq_pZero_iff, signBit_negPattern, magBits_negPattern, Bool.not_eq_true']

/-! A NaN operand. -/

theorem fadd_of_isNaN (h : isNaN x = true ∨ isNaN y = true) : fadd x y = cNaN :=
  if_pos (Bool.or_eq_true_iff.mpr h)

theorem fsub_of_isNaN (h : isNaN x = true ∨ isNaN y = true) : fsub x y = cNaN :=
  fadd_of_isNaN (by rwa [isNaN_negPattern])

theorem fmul_of_isNaN (h : isNaN x = true ∨ isNaN y = true) : fmul x y = cNaN :=
  if_pos (Bool.or_eq_true_iff.mpr h)

theorem fdiv_of_isNaN (h : isNaN x = true ∨ isNaN y = true) : fdiv x y = cNaN :=
  if_pos (Bool.or_eq_true_iff.mpr h)

/-! Finite operands. -/

theorem value_add_eq_zero_iff : value x + value y = 0 ↔ rank x + rank y = 0 := by
  rw [add_eq_zero_iff_eq_neg, ← value_negPattern, value_eq_iff, rank_negPattern, add_eq_zero_iff_eq_neg]

/-- Two patterns with set sign bits cancel only if both are zeros. -/
theorem both_nZero_iff (h : value x + value y = 0) : (signBit x && signBit y) = true ↔ x = nZero ∧ y = nZero := by
  rw [value_add_eq_zero_iff, rank_eq, rank_eq] at h
  rw [eq_nZero_iff, eq_nZero_iff, Bool.and_eq_true]
  constructor
  · rintro ⟨hx, hy⟩
    rw [if_pos hx, if_pos hy] at h
    exact ⟨⟨hx, by omega⟩, hy, by omega⟩
  · rintro ⟨⟨hx, _⟩, hy, _⟩
    exact ⟨hx, hy⟩

theorem value_pos_iff_signBit (h : value x ≠ 0) : 0 < value x ↔ signBit x = false := by
  rw [← Bool.not_eq_true, ← value_neg_iff_signBit h, not_lt]
  exact h.symm.le_iff_lt.symm

/-- The sign of a product or a quotient is the exclusive-or of the signs. -/
theorem signs_differ_iff (hx : value x ≠ 0) (hy : value y ≠ 0) :
    0 < value x ∧ value y < 0 ∨ value x < 0 ∧ 0 < value y ↔ (signBit x != signBit y) = true := by
  rw [value_pos_iff_signBit hx, value_pos_iff_signBit hy, value_neg_iff_signBit hx, value_neg_iff_signBit hy]
  cases signBit x <;> cases signBit y <;> decide

section
variable (hx : isFinite x = true) (hy : isFinite y = true)
include hx hy

theorem fadd_of_isFinite : fadd x y =
    if value x + value y = 0 then if x = nZero ∧ y = nZero then nZero else pZero else round32 (value x + value y) := by
  have hxy : (isNaN x || isNaN y) = false := by rw [isNaN_of_isFinite hx, isNaN_of_isFinite hy, Bool.or_false]
  rw [fadd, hxy, isInf_of_isFinite hx, isInf_of_isFinite hy]
  simp only [Bool.false_eq_true, if_false]
  split
  · next h => simp only [both_nZero_iff h]
  · rfl

theorem fsub_of_isFinite : fsub x y =
    if value x - value y = 0 then if x = nZero ∧ y = pZero then nZero else pZero else round32 (value x - value y) := by
  rw [fsub, fadd_of_isFinite hx ((isFinite_negPattern y).trans hy), value_negPattern, ← sub_eq_add_neg]
  simp only [negPattern_eq_nZero_iff]

theorem fmul_of_isFinite : fmul x y = roundSigned (signBit x != signBit y) (value x * value y) := by
  simp [fmul, isNaN_of_isFinite, isInf_of_isFinite, hx, hy]

theorem fdiv_of_isFinite (h : value y ≠ 0) : fdiv x y = roundSigned (signBit x != signBit y) (value x / value y) := by
  have hz : isZero y = false := Bool.eq_false_iff.mpr fun hz => h (value_eq_zero_iff.mpr (isZero_iff.mp hz))
  simp [fdiv, isNaN_of_isFinite, isInf_of_isFinite, hx, hy, hz]

theorem fdiv_by_zero (h : value y = 0) :
    fdiv x y = if value x = 0 then cNaN else withSign (signBit x != signBit y) pInf.toNat := by
  have hz : isZero y = true := isZero_iff.mpr (value_eq_zero_iff.mp h)
  have hzx : isZero x = true ↔ value x = 0 := isZero_iff.trans value_eq_zero_iff.symm
  simp [fdiv, isNaN_of_isFinite, isInf_of_isFinite, hx, hy, hz, hzx]

end

/-! An infinity on one side. -/

section
variable (hx : isInf x = true) (hy : isFinite y = true)
include hx hy

theorem fadd_of_isInf_left : fadd x y = x := by
  simp [fadd, isNaN_of_isInf, isNaN_of_isFinite, isInf_of_isFinite, hx, hy]

theorem fadd_of_isInf_right : fadd y x = x := by
  simp [fadd, isNaN_of_isInf, isNaN_of_isFinite, isInf_of_isFinite, hx, hy]

theorem fsub_of_isInf_left : fsub x y = x := fadd_of_isInf_left hx ((isFinite_negPattern y).trans hy)

theorem fsub_of_isInf_right : fsub y x = negPattern x := fadd_of_isInf_right ((isInf_negPattern x).trans hx) hy

theorem fmul_of_isInf_left :
    fmul x y = if isZero y then cNaN else withSign (signBit x != signBit y) pInf.toNat := by
  simp [fmul, isNaN_of_isInf, isNaN_of_isFinite, isZero_of_isInf, hx, hy]

theorem fmul_of_isInf_right :
    fmul y x = if isZero y then cNaN else withSign (signBit y != signBit x) pInf.toNat := by
  simp [fmul, isNaN_of_isInf, isNaN_of_isFinite, isZero_of_isInf, hx, hy]

theorem fdiv_of_isInf_left : fdiv x y = withSign (signBit x != signBit y) pInf.toNat := by
  simp [fdiv, isNaN_of_isInf, isNaN_of_isFinite, isInf_of_isFinite, hx, hy]

theorem fdiv_of_isInf_right : fdiv y x = withSign (signBit y != signBit x) 0 := by
  simp [fdiv, isNaN_of_isInf, isNaN_of_isFinite, isInf_of_isFinite, hx, hy]

end

end

/-! NaN results. -/

/-- `x` is no NaN but the canonical one (R12). -/
def NaNIsCanonical (x : B32) : Prop := isNaN x = true → x = cNaN

theorem nanIsCanonical_cNaN : NaNIsCanonical cNaN := fun _ => rfl

theorem nanIsCanonical_of_not_isNaN {x : B32} (h : isNaN x = false) : NaNIsCanonical x :=
  fun hn => absurd hn (Bool.eq_false_iff.mp h)

theorem nanIsCanonical_roundSigned (neg : Bool) (q : ℚ) : NaNIsCanonical (roundSigned neg q) :=
  nanIsCanonical_of_not_isNaN (isNaN_roundSigned neg q)

theorem nanIsCanonical_inf (neg : Bool) : NaNIsCanonical (withSign neg pInf.toNat) :=
  nanIsCanonical_of_not_isNaN (by cases neg <;> decide)

theorem nanIsCanonical_zero (neg : Bool) : NaNIsCanonical (withSign neg 0) :=
  nanIsCanonical_of_not_isNaN (by cases neg <;> decide)

theorem nanIsCanonical_fadd (x y : B32) : NaNIsCanonical (fadd x y) := by
  unfold fadd
  split
  · exact nanIsCanonical_cNaN
  next hnan =>
  obtain ⟨hx, hy⟩ : isNaN x = false ∧ isNaN y = false := by simpa using hnan
  split
  · split
    · exact nanIsCanonical_cNaN
    · exact nanIsCanonical_of_not_isNaN hx
  split
  · exact nanIsCanonical_of_not_isNaN hy
  split
  · split
    · exact nanIsCanonical_zero true
    · exact nanIsCanonical_zero false
  · exact nanIsCanonical_roundSigned _ _

theorem nanIsCanonical_fmul (x y : B32) : NaNIsCanonical (fmul x y) := by
  unfold fmul
  dsimp only
  split
  · exact nanIsCanonical_cNaN
  split
  · split
    · exact nanIsCanonical_cNaN
    · exact nanIsCanonical_inf _
  · exact nanIsCanonical_roundSigned _ _

theorem nanIsCanonical_fdiv (x y : B32) : NaNIsCanonical (fdiv x y) := by
  unfold fdiv
  dsimp only
  split
  · exact nanIsCanonical_cNaN
  split
  · split
    · exact nanIsCanonical_cNaN
    · exact nanIsCanonical_inf _
  split
  · exact nanIsCanonical_zero _
  split
  · split
    · exact nanIsCanonical_cNaN
    · exact nanIsCanonical_inf _
  · exact nanIsCanonical_roundSigned _ _

theorem nanIsCanonical_clampCurrent (x : B32) : NaNIsCanonical (clampCurrent x) := by
  unfold clampCurrent
  split
  · exact nanIsCanonical_cNaN
  next hx =>
  split
  · exact nanIsCanonical_of_not_isNaN (by decide)
  split
  · exact nanIsCanonical_of_not_isNaN (by decide)
  · exact nanIsCanonical_of_not_isNaN (Bool.eq_false_iff.mpr hx)

end Sys2Proof.Machine
end

section
/-! The statements on binary32 (00_scope.md R10 to R15), each from the lemmas above. -/

namespace Sys2Proof.Machine

/-! ## Rounding -/

/-- The units of `magUnits` as IEEE 754's value of a subnormal and of a normal magnitude. -/
theorem magUnits_div (x : B32) : (magUnits x : ℚ) / 2 ^ 149 =
    if expField x = 0 then (fracField x : ℚ) / 2 ^ 149
    else (2 ^ 23 + (fracField x : ℚ)) * 2 ^ expField x / 2 ^ 150 := by
  unfold magUnits
  split
  · rfl
  · next h =>
    obtain ⟨e, he⟩ := Nat.exists_eq_succ_of_ne_zero h
    rw [he, Nat.succ_sub_one, Nat.cast_mul, Nat.cast_add, Nat.cast_pow, Nat.cast_pow, Nat.cast_ofNat, pow_succ 2 e,
      pow_succ 2 149, ← mul_assoc, mul_div_mul_right _ _ two_ne_zero]

theorem value_eq_sign_mul (x : B32) :
    value x = (if signBit x then -1 else 1) * ((magUnits x : ℚ) / 2 ^ 149) := by
  rw [value, Rat.mkRat_eq_div, Nat.cast_pow, Nat.cast_ofNat]
  cases signBit x
  · rw [if_neg Bool.false_ne_true, if_neg Bool.false_ne_true, Int.cast_natCast, one_mul]
  · rw [if_pos rfl, if_pos rfl, Int.cast_neg, Int.cast_natCast, neg_one_mul, neg_div]

/-- Settles O41: the rank of a rounded number is nearest among all places of the order of values, with the infinities from the
midpoint above the largest finite place on. -/
theorem round32IsNearestTiesToEven : Obligations.Round32IsNearestTiesToEven := by
  refine ⟨fun x _ => ?_, round32_zero, fun q hq => ⟨isFinite_round32 hq, fun y _ => round32_nearest hq y⟩, fun q hq => ?_,
    fun q hq => ?_⟩
  · exact (value_eq_sign_mul x).trans (by rw [magUnits_div]; rfl)
  · have hpos : (0 : ℚ) ≤ q := le_trans (by norm_num) hq
    rw [round32_of_overflow (hq.trans (le_abs_self q)), if_neg hpos.not_gt]
    rfl
  · have hneg : q < 0 := lt_of_le_of_lt hq (by norm_num)
    rw [round32_of_overflow ((le_neg_of_le_neg hq).trans (neg_le_abs q)), if_pos hneg]
    rfl

/-! ## The operations -/

/-- Settles O43: every branch of an operation answers CNAN, a rounded number, a zero, an infinity, or an operand that is no
NaN. -/
theorem nanResultsAreCanonical : Obligations.NanResultsAreCanonical := fun x y =>
  ⟨nanIsCanonical_fadd x y, nanIsCanonical_fadd x (negPattern y), nanIsCanonical_fmul x y, nanIsCanonical_fdiv x y,
    nanIsCanonical_clampCurrent x⟩

/-- A choice by "signs agree", as O42 writes it, is a choice by the exclusive-or of the signs. -/
theorem ite_signs_agree (x y a b : B32) :
    (if x.getLsbD 31 = y.getLsbD 31 then a else b) = if signBit x != signBit y then b else a := by
  rw [getLsbD_31, getLsbD_31]
  cases signBit x <;> cases signBit y <;> rfl

section
variable {x y : B32}

/-- Finite operands: the exact result rounded once, the sign of a zero result, and division by zero. -/
theorem arithmetic_of_isFinite (hx : isFinite x = true) (hy : isFinite y = true) :
    (value x + value y ≠ 0 → fadd x y = round32 (value x + value y)) ∧
    (value x + value y = 0 → fadd x y = if x = nZero ∧ y = nZero then nZero else pZero) ∧
    (value x - value y ≠ 0 → fsub x y = round32 (value x - value y)) ∧
    (value x - value y = 0 → fsub x y = if x = nZero ∧ y = pZero then nZero else pZero) ∧
    (value x * value y ≠ 0 → fmul x y = round32 (value x * value y)) ∧
    (value x * value y = 0 → fmul x y = withSign (signBit x != signBit y) 0) ∧
    (value x ≠ 0 → value y ≠ 0 → fdiv x y = round32 (value x / value y)) ∧
    (value x = 0 → value y ≠ 0 → fdiv x y = withSign (signBit x != signBit y) 0) ∧
    (value x ≠ 0 → value y = 0 → fdiv x y = withSign (signBit x != signBit y) pInf.toNat) ∧
    (value x = 0 → value y = 0 → fdiv x y = cNaN) := by
  refine ⟨fun h => ?_, fun h => ?_, fun h => ?_, fun h => ?_, fun h => ?_, fun h => ?_, fun h h' => ?_, fun h h' => ?_,
    fun h h' => ?_, fun h h' => ?_⟩
  · rw [fadd_of_isFinite hx hy, if_neg h]
  · rw [fadd_of_isFinite hx hy, if_pos h]
  · rw [fsub_of_isFinite hx hy, if_neg h]
  · rw [fsub_of_isFinite hx hy, if_pos h]
  · obtain ⟨hx0, hy0⟩ := mul_ne_zero_iff.mp h
    rw [fmul_of_isFinite hx hy, roundSigned_eq_round32 (mul_neg_iff.trans (signs_differ_iff hx0 hy0))]
  · rw [fmul_of_isFinite hx hy, h, roundSigned_zero, withSign_zero]
  · rw [fdiv_of_isFinite hx hy h', roundSigned_eq_round32 (div_neg_iff.trans (signs_differ_iff h h'))]
  · rw [fdiv_of_isFinite hx hy h', h, zero_div, roundSigned_zero, withSign_zero]
  · rw [fdiv_by_zero hx hy h', if_neg h]
  · rw [fdiv_by_zero hx hy h', if_pos h]

theorem negPattern_of_isInf (h : isInf y = true) : negPattern y = if y = pInf then nInf else pInf := by
  rcases isInf_iff_eq.mp h with rfl | rfl <;> decide

/-- Two infinities: of one sign they add up, of different signs they cancel to a NaN, the other way round for `fsub`. -/
theorem arithmetic_of_isInf (hx : isInf x = true) (hy : isInf y = true) :
    fadd x y = (if x = y then x else cNaN) ∧ fsub x y = (if x = y then cNaN else x) ∧
    fmul x y = withSign (signBit x != signBit y) pInf.toNat ∧ fdiv x y = cNaN := by
  rcases isInf_iff_eq.mp hx with rfl | rfl <;> rcases isInf_iff_eq.mp hy with rfl | rfl <;> decide +kernel

end

/-- Settles O42, class by class of the operands. -/
theorem arithmeticIsExactThenRounded : Obligations.ArithmeticIsExactThenRounded := by
  intro x y zero inf hzero hinf
  obtain rfl : zero = withSign (signBit x != signBit y) 0 := hzero.trans ((ite_signs_agree ..).trans (withSign_zero _).symm)
  obtain rfl : inf = withSign (signBit x != signBit y) pInf.toNat :=
    hinf.trans ((ite_signs_agree ..).trans (withSign_inf _).symm)
  refine ⟨fun h => ?_, arithmetic_of_isFinite, fun hx hy => ?_, fun hx hy => ?_, arithmetic_of_isInf⟩
  · exact ⟨fadd_of_isNaN h, fsub_of_isNaN h, fmul_of_isNaN h, fdiv_of_isNaN h⟩
  · exact ⟨fadd_of_isInf_left hx hy, fsub_of_isInf_left hx hy, fmul_of_isInf_left hx hy, fdiv_of_isInf_left hx hy⟩
  · exact ⟨fadd_of_isInf_right hy hx, (fsub_of_isInf_right hy hx).trans (negPattern_of_isInf hy),
      fmul_of_isInf_right hy hx, fdiv_of_isInf_right hy hx⟩

/-! ## The comparisons and the key -/

section
variable {x y : B32}

/-- Of patterns that are no NaN every comparison is that of the ranks. -/
theorem comparisons_eq_rank (hx : isNaN x = false) (hy : isNaN y = false) :
    (flt x y = true ↔ rank x < rank y) ∧ (fgt x y = true ↔ rank y < rank x) ∧ (fge x y = true ↔ rank y ≤ rank x) ∧
    (fle x y = true ↔ rank x ≤ rank y) ∧ (feq x y = true ↔ rank x = rank y) := by
  simp [flt, fgt, fge, fle, feq, hx, hy]

theorem comparisons_of_isNaN (h : isNaN x = true ∨ isNaN y = true) :
    flt x y = false ∧ fgt x y = false ∧ fge x y = false ∧ fle x y = false ∧ feq x y = false := by
  have hxy : (!isNaN x && !isNaN y) = false := by rcases h with h | h <;> simp [h]
  simp only [flt, fgt, fge, fle, feq, hxy, Bool.false_and, and_self]

theorem comparisons_of_isFinite (hx : isFinite x = true) (hy : isFinite y = true) :
    (flt x y = true ↔ value x < value y) ∧ (fgt x y = true ↔ value y < value x) ∧ (fge x y = true ↔ value y ≤ value x) ∧
    (fle x y = true ↔ value x ≤ value y) ∧ (feq x y = true ↔ value x = value y) := by
  simp only [value_lt_iff, value_le_iff, value_eq_iff]
  exact comparisons_eq_rank (isNaN_of_isFinite hx) (isNaN_of_isFinite hy)

theorem comparisons_from_flt (hx : isNaN x = false) (hy : isNaN y = false) :
    (fgt x y = true ↔ flt y x = true) ∧ (fge x y = true ↔ flt x y = false) ∧ (fle x y = true ↔ flt y x = false) ∧
    (feq x y = true ↔ flt x y = false ∧ flt y x = false) := by
  obtain ⟨hlt, hgt, hge, hle, heq⟩ := comparisons_eq_rank hx hy
  obtain ⟨hlt', -⟩ := comparisons_eq_rank hy hx
  refine ⟨hgt.trans hlt'.symm, ?_, ?_, ?_⟩
  · rw [hge, ← Bool.not_eq_true, hlt, not_lt]
  · rw [hle, ← Bool.not_eq_true, hlt', not_lt]
  · rw [heq, ← Bool.not_eq_true, ← Bool.not_eq_true, hlt, hlt', not_lt, not_lt, and_comm, le_antisymm_iff]

/-- The infinities stand at the ends of the ranks of the patterns that are no NaN. -/
theorem rank_bounds (h : isNaN x = false) : rank nInf ≤ rank x ∧ rank x ≤ rank pInf := by
  have hm := isNaN_eq_false_iff.mp h
  have hp : rank pInf = 0x7F800000 := rfl
  have hn : rank nInf = -0x7F800000 := rfl
  rw [hp, hn, rank_eq]
  split <;> omega

theorem rank_lt_pInf (h : isNaN x = false) (hne : x ≠ pInf) : rank x < rank pInf := by
  refine lt_of_le_of_ne (rank_bounds h).2 fun he => hne ?_
  have hp : rank pInf = 0x7F800000 := rfl
  rw [hp] at he
  cases hs : signBit x
  · rw [rank_of_pos hs] at he
    exact eq_pInf_iff.mpr ⟨hs, by omega⟩
  · rw [rank_of_neg hs] at he
    omega

theorem rank_nInf_lt (h : isNaN x = false) (hne : x ≠ nInf) : rank nInf < rank x := by
  refine lt_of_le_of_ne (rank_bounds h).1 fun he => hne ?_
  have hn : rank nInf = -0x7F800000 := rfl
  rw [hn] at he
  cases hs : signBit x
  · rw [rank_of_pos hs] at he
    omega
  · rw [rank_of_neg hs] at he
    exact eq_nInf_iff.mpr ⟨hs, by omega⟩

theorem flt_pInf_left (x : B32) : flt pInf x = false := by
  cases hx : isNaN x
  · rw [← Bool.not_eq_true, (comparisons_eq_rank (by decide) hx).1, not_lt]
    exact (rank_bounds hx).2
  · exact (comparisons_of_isNaN (.inr hx)).1

theorem flt_nInf_right (x : B32) : flt x nInf = false := by
  cases hx : isNaN x
  · rw [← Bool.not_eq_true, (comparisons_eq_rank hx (by decide)).1, not_lt]
    exact (rank_bounds hx).1
  · exact (comparisons_of_isNaN (.inl hx)).1

end

/-- Settles O44: values are ordered as the ranks are, and the infinities stand at the ends of the ranks. -/
theorem comparisonsFollowTheValues : Obligations.ComparisonsFollowTheValues := fun x _ =>
  ⟨comparisons_of_isNaN, comparisons_of_isFinite,
    fun hx hne => (comparisons_eq_rank hx (by decide)).1.mpr (rank_lt_pInf hx hne),
    fun hx hne => (comparisons_eq_rank (by decide) hx).1.mpr (rank_nInf_lt hx hne),
    flt_pInf_left x, flt_nInf_right x, by decide, by decide, comparisons_from_flt⟩

/-- A NaN lies beyond the infinity of its sign in the order of the keys. -/
theorem key_lt_nInf_of_isNaN {x : B32} (hx : isNaN x = true) (hs : signBit x = true) : (key x).toNat < (key nInf).toNat :=
  (key_lt_iff_of_neg hs rfl).mpr (isNaN_iff.mp hx)

theorem key_pInf_lt_of_isNaN {x : B32} (hx : isNaN x = true) (hs : signBit x = false) : (key pInf).toNat < (key x).toNat :=
  (key_lt_iff_of_pos rfl hs).mpr (isNaN_iff.mp hx)

/-- Settles O45: within a sign the keys order the magnitude bits, and the ranks of finite patterns agree with the keys. -/
theorem keyIsATotalOrder : Obligations.KeyIsATotalOrder := by
  intro x y
  refine ⟨key_toNat x, key_injective, fun _ _ hv => key_lt_of_rank_lt (value_lt_iff.mp hv),
    key_lt_of_neg_of_pos rfl rfl, fun hx => ?_, key_lt_nInf_of_isNaN, key_pInf_lt_of_isNaN, fun hx hy => ?_, fun hx hy => ?_,
    key_lt_of_neg_of_pos⟩
  · have hinf : isInf x = false := isInf_of_isFinite hx
    exact ⟨key_lt_of_rank_lt (rank_nInf_lt (isNaN_of_isFinite hx) fun h => by rw [h] at hinf; cases hinf),
      key_lt_of_rank_lt (rank_lt_pInf (isNaN_of_isFinite hx) fun h => by rw [h] at hinf; cases hinf)⟩
  · exact (key_lt_iff_of_pos hx hy).trans (toNat_lt_iff_of_sign (Eq.trans hx hy.symm)).symm
  · exact (key_lt_iff_of_neg hx hy).trans (toNat_lt_iff_of_sign (Eq.trans hy hx.symm)).symm

end Sys2Proof.Machine
end

section
/-! What every step keeps of the state (10_state.md R50): each named update and each op keeps `StateInv`. A proof names the
invariants that the update writes to; the others hold because their fields do not change. -/

namespace Sys2Proof.Machine

/-! ## The fill of a ring (R50 (a), (b)) -/

/-- A ring of `n` slots that is not full has been written from slot 0 on, and a push keeps it so. -/
theorem ringFill_push {n : Nat} [NeZero n] {wr : Fin n} {cnt : Fin (n + 1)} (h : cnt.val < n → wr.val = cnt.val)
    (hfull : (Fin.ofNat (n + 1) (min (cnt.val + 1) n)).val < n) :
    (Fin.ofNat n (wr.val + 1)).val = (Fin.ofNat (n + 1) (min (cnt.val + 1) n)).val := by
  have hcnt : (Fin.ofNat (n + 1) (min (cnt.val + 1) n)).val = min (cnt.val + 1) n := Nat.mod_eq_of_lt (by omega)
  rw [hcnt] at hfull ⊢
  have hwr := h (by omega)
  have hpush : (Fin.ofNat n (wr.val + 1)).val = wr.val + 1 := Nat.mod_eq_of_lt (by omega)
  omega

/-! ## The legal output currents (R50 (f), R371) -/

theorem currentLegal_clampCurrent (x : B32) : currentLegal (clampCurrent x) := by
  unfold clampCurrent
  split
  · exact .inl rfl
  next hnan =>
  split
  · exact .inr (by decide)
  next hlow =>
  split
  · exact .inr (by decide)
  next hhigh =>
  have hx : isNaN x = false := Bool.eq_false_iff.mpr hnan
  obtain ⟨-, hge, -, -⟩ := comparisons_from_flt hx (y := f4) (by decide)
  obtain ⟨hgt, -, hle, -⟩ := comparisons_from_flt hx (y := f20) (by decide)
  have hlow' : flt x f4 = false := Bool.eq_false_iff.mpr hlow
  have hhigh' : flt f20 x = false := Bool.eq_false_iff.mpr (mt hgt.mpr hhigh)
  exact .inr ⟨hge.mpr hlow', hle.mpr hhigh'⟩

theorem currentLegal_calcCurrent (t4 t20 t : B32) : currentLegal (calcCurrent t4 t20 t) := by
  unfold calcCurrent
  split
  · exact .inr (by decide)
  · exact currentLegal_clampCurrent _

namespace StateInv

variable {s : State}

/-! ## The named updates -/

theorem setRc (h : StateInv s) (code : ResultCode) : StateInv (s.setRc code) := { h with }

theorem endPulse (h : StateInv s) : StateInv s.endPulse := { h with }

theorem emit (h : StateInv s) (e : Event) : StateInv (s.emit e) := { h with }

theorem lutRace (h : StateInv s) : StateInv s.lutRace := { h with }

theorem setLookup (h : StateInv s) (ok : Bool) (k : B32) : StateInv (s.setLookup ok k) := { h with }

theorem pushMean (h : StateInv s) (x : B32) : StateInv (s.pushMean x) := { h with mafFill := ringFill_push h.mafFill }

theorem driveCurrent (h : StateInv s) {x : B32} (hx : currentLegal x) : StateInv (s.driveCurrent x) := { h with current := hx }

/-- R50 (e): a frame has six bytes and at most 255 more (R130). -/
theorem emitFrame (h : StateInv s) (cmd : Byte) {p : List Byte} (hp : p.length ≤ 255) : StateInv (s.emitFrame cmd p) :=
  { h with
    txLength := by
      have hlen : (s.emitFrame cmd p).txLen.toNat = p.length + 6 := by
        rw [emitFrame_txLen, buildFrame_length, BitVec.toNat_ofNat]
        exact Nat.mod_eq_of_lt (by omega)
      exact .inr (by omega) }

theorem withTbl (h : StateInv s) {cs : List Host.Cell} {m : Memory} (hm : applyWrites s.params s.tbl cs = some m) :
    StateInv { s with tbl := m } :=
  { h with
    tblCanonical := (applyWrites_spec hm h.tblCanonical h.tblInside).1
    tblInside := (applyWrites_spec hm h.tblCanonical h.tblInside).2 }

end StateInv

/-- A reset asks nothing of the block's state before it, only of the table, which it keeps (R442). -/
theorem stateInv_applyReset {s : State} (hwf : s.tbl.wf = true) (hin : ∀ c ∈ s.tbl, c.1 < s.params.tblBytes) :
    StateInv s.applyReset where
  medFill _ := rfl
  mafFill _ := rfl
  collecting h := by cases h
  frameValid h := by cases h
  txLength := .inl rfl
  current := show currentLegal f4 from .inr (by decide)
  tblCanonical := hwf
  tblInside := hin

/-! ## The frame parser (R50 (c), (d)) -/

namespace StateInv

variable {s : State} (d : Byte)

/-- Inside a frame the flag of R38 is down, so a byte that leaves the flag alone keeps R50 (d). -/
theorem frameValid_of_ne_awaitingHead (h : StateInv s) (hst : s.rxState ≠ .awaitingHead) {st : RxState} :
    s.rxFv = true → st = .awaitingHead :=
  fun hfv => absurd (h.frameValid hfv) hst

/-- Back in AwaitingHead the parser may hold the frame as valid or not. -/
theorem frameOver (h : StateInv s) (evt : RxEvt) (fv : Bool) :
    StateInv { s with rxState := .awaitingHead, rxEvt := evt, rxFv := fv } :=
  { h with collecting := nofun, frameValid := fun _ => rfl }

theorem rxAwaitingHead (h : StateInv s) : StateInv (rxAwaitingHead d s) := by
  unfold Machine.rxAwaitingHead
  split
  · exact { h with collecting := nofun, frameValid := nofun }
  · exact h

/-- The byte after the length is a payload byte only where the length is not 0 (R208). -/
theorem rxGotLen (h : StateInv s) (hst : s.rxState = .gotLen) : StateInv (rxGotLen d s) := by
  refine { h with collecting := fun hcoll => ?_, frameValid := h.frameValid_of_ne_awaitingHead (by simp [hst]) }
  have hd : d ≠ 0 := fun hzero => nomatch (if_pos hzero).symm.trans hcoll
  show 0 < d
  bv_omega

/-- The index stays below the length until the last payload byte (R202). -/
theorem rxCollectingPayload (h : StateInv s) (hst : s.rxState = .collectingPayload) :
    StateInv (rxCollectingPayload d s) := by
  refine { h with collecting := fun hcoll => ?_, frameValid := h.frameValid_of_ne_awaitingHead (by simp [hst]) }
  have hlt := h.collecting hst
  have hne : s.rxIdx + 1 ≠ s.rxLen := fun hlast => nomatch (if_pos hlast).symm.trans hcoll
  show s.rxIdx + 1 < s.rxLen
  bv_omega

theorem rxAwaitingTail (h : StateInv s) : StateInv (rxAwaitingTail d s) := by
  unfold Machine.rxAwaitingTail
  split
  · split
    · exact (h.frameOver .frameOk true).emit _
    · exact (h.frameOver .crcErr s.rxFv).emit _
  · exact h.frameOver s.rxEvt s.rxFv

theorem rxCase (h : StateInv s) : StateInv (rxCase d s) := by
  unfold Machine.rxCase
  cases hst : s.rxState with
  | awaitingHead => exact h.rxAwaitingHead d
  | gotCmd => exact { h with collecting := nofun, frameValid := h.frameValid_of_ne_awaitingHead (by simp [hst]) }
  | gotLen => exact h.rxGotLen d hst
  | collectingPayload => exact h.rxCollectingPayload d hst
  | gotCrcLow => exact { h with collecting := nofun, frameValid := h.frameValid_of_ne_awaitingHead (by simp [hst]) }
  | gotCrcHigh => exact { h with collecting := nofun, frameValid := h.frameValid_of_ne_awaitingHead (by simp [hst]) }
  | awaitingTail => exact h.rxAwaitingTail d

/-! ## The ops -/

/-- Every op keeps `StateInv` (R50: "holding after reset and after every op"). -/
theorem exec {i : Instr} {t : State} (h : StateInv s) (hx : exec i s = .next t) : StateInv t := by
  cases i with
  | nop => cases hx; exact h.setRc _
  | crcInit => cases hx; exact { h with }
  | crcByte d => cases hx; exact { h with }
  | rxFeed d =>
    cases hx
    have hs : StateInv { s with rxEvt := .none } := { h with }
    exact (hs.rxCase d).setRc _
  | rxReset => cases hx; exact (h.frameOver .none false).setRc _
  | txPlWrite idx d => cases hx; exact { h with }
  | txAck cmd status => cases hx; exact (h.emitFrame cmd (by simp)).setRc _
  | txData cmd n =>
    cases hx
    have hn := n.isLt
    exact (h.emitFrame cmd (by rw [List.length_take]; omega)).setRc _
  | txReport cmd temp volt cur => cases hx; exact (h.emitFrame cmd (by simp [le32])).setRc _
  | medPush x => cases hx; exact { h with medFill := ringFill_push h.medFill }
  | medEval =>
    cases hx
    split
    · exact h.setRc _
    · exact { h with }
  | medClear => cases hx; exact { h with medFill := fun _ => rfl }
  | mafPush x => cases hx; exact (h.pushMean x).setRc _
  | mafClear => cases hx; exact { h with mafFill := fun _ => rfl }
  | medMaf =>
    cases hx
    split
    · exact h.setRc _
    · exact { h.pushMean (median5 s.medBuf) with }
  | lutVerify =>
    rcases execLutVerify_cases hx with ⟨-, rfl⟩ | ⟨-, ok, -, rfl⟩
    · exact h.lutRace
    · exact { h with }
  | lutLookup v =>
    rcases execLutLookup_cases hx with ⟨-, rfl⟩ | ⟨-, -, k, -, rfl⟩ | ⟨-, -, rfl⟩
    · exact h.lutRace
    · exact h.setLookup _ _
    · exact h.setLookup _ _
  | mapSetT4 t => cases hx; exact { h with }
  | mapSetT20 t => cases hx; exact { h with }
  | mapCalc t => cases hx; exact { h with }
  | mapUpdate t => cases hx; exact { h.driveCurrent (currentLegal_calcCurrent s.mapT4 s.mapT20 t) with }
  | mapSetCurrent cur => cases hx; exact (h.driveCurrent (currentLegal_clampCurrent cur)).setRc _

end StateInv

/-! ## The obligations -/

/-- Settles O55, by the kinds of step: the writer's bytes keep the table canonical and inside `TBL_BYTES`, a reset gives the
block its reset values, and an op on the table so written keeps the rest. -/
theorem stepKeepsTheStateInvariants : Obligations.StepKeepsTheStateInvariants := by
  intro s t h hstep
  rcases step_cases hstep with
    ⟨-, rfl⟩ | ⟨rest, ⟨-, rfl⟩ | ⟨-, rfl⟩ | ⟨a, b, m, -, hm, rfl⟩ | ⟨w, cs, m, -, hm, ⟨i, -, hx⟩ | ⟨e, -, rfl⟩⟩⟩
  · exact h.endPulse
  · exact { h with }
  · exact stateInv_applyReset h.tblCanonical h.tblInside
  · exact { h.withTbl hm with }
  · have hs : StateInv { s with inputs := rest, event := .none, tbl := m, tblRace := tblChanges s.tbl cs } :=
      { h.withTbl hm with }
    exact hs.exec hx
  · exact { h.withTbl hm with }

/-- Nothing of a frame is held at reset, so `ParserInv` asks nothing of it. -/
theorem parserInv_reset : ParserInv State.reset where
  atCmd h := by cases h
  atLen h := by cases h
  atPayload h := by cases h
  atTrailer h := by rcases h with h | h | h <;> cases h
  valid h := by cases h

/-- Settles O54: the reset state is a reset applied to an empty table, and its parser holds no frame. -/
theorem resetMeetsTheInvariants : Obligations.ResetMeetsTheInvariants :=
  ⟨stateInv_applyReset (s := State.reset) reset_tbl_wf nofun, parserInv_reset⟩

end Sys2Proof.Machine
end

section
/-! What the ports show (10_state.md R53 to R55, R63) and what a step does with an offered bundle (R52), each port and each
answer said once. -/

namespace Sys2Proof.Machine

/-! ## A step at which a bundle is offered -/

theorem runBundle_of_decode_ok {w : Bundle} {i : Instr} (h : decode w = .ok i) (s : State) : runBundle w s = exec i s := by
  rw [runBundle, h]

theorem runBundle_of_decode_error {w : Bundle} {e : DecodeError} (h : decode w = .error e) (s : State) :
    runBundle w s = .next s.illegalOp := by
  rw [runBundle, h]

/-- A step runs the offered bundle on the table that the writer's bytes give, with the pulse of the op before over. -/
theorem step_of_op {s : State} {w : Bundle} {cs : List Host.Cell} {rest : List Input} {m : Memory}
    (hin : s.inputs = .op w cs :: rest) (hm : applyWrites s.params s.tbl cs = some m) :
    step s = runBundle w { s with inputs := rest, event := .none, tbl := m, tblRace := tblChanges s.tbl cs } := by
  simp only [step, hin, runInput, runOp, writeTable, hm, State.endPulse]

/-- Settles O7: with no byte written during the op, its step runs the bundle on the table as it stands. -/
theorem stepRunsTheDecodedOp : Obligations.StepRunsTheDecodedOp := fun s w rest hin => by
  have hstep : step s = runBundle w { s with inputs := rest, event := .none, tblRace := false } := step_of_op hin rfl
  exact ⟨fun _ hi => hstep.trans (runBundle_of_decode_ok hi _), fun _ he => hstep.trans (runBundle_of_decode_error he _)⟩

/-! ## The read ports (R54) -/

/-- An entry of a vector as the entry of its list, where the index is in range. -/
theorem vector_getElem_eq_getD {α : Type} {n : Nat} (v : Vector α n) {k : Nat} (h : k < n) (d : α) :
    v[k] = v.toList.getD k d :=
  (Vector.getElem_toList (by simpa using h)).symm.trans (List.getElem_eq_getD d)

section
variable (s : State)

theorem txBufRdata_eq (a : BitVec 9) :
    txBufRdata s a = if a.toNat ≤ 260 then s.txBuf.toList.getD a.toNat 0 else 0x00#8 := by
  unfold txBufRdata
  split
  next h => rw [if_pos (Nat.le_of_lt_succ h), vector_getElem_eq_getD _ h]
  next h => rw [if_neg (by omega)]

theorem medRdata_eq (a : BitVec 3) :
    medRdata s a = if a.toNat ≤ 4 then s.medBuf.toList.getD a.toNat 0 else 0x00000000#32 := by
  unfold medRdata
  split
  next h => rw [if_pos (Nat.le_of_lt_succ h), vector_getElem_eq_getD _ h]
  next h => rw [if_neg (by omega)]

theorem rxBufRdata_eq (a : BitVec 8) : rxBufRdata s a = s.rxBuf.toList.getD a.toNat 0 := vector_getElem_eq_getD _ a.isLt _

theorem txPlRdata_eq (a : BitVec 8) : txPlRdata s a = s.txPl.toList.getD a.toNat 0 := vector_getElem_eq_getD _ a.isLt _

theorem mafRdata_eq (a : BitVec 4) : mafRdata s a = s.mafWin.toList.getD a.toNat 0 := vector_getElem_eq_getD _ a.isLt _

end

/-! ## Codes and counts on the status ports (R53) -/

/-- A number below the range of a port stands on it whole. -/
theorem ofNat_val_toNat {w n : Nat} (h : n ≤ 2 ^ w) (k : Fin n) : (BitVec.ofNat w k.val).toNat = k.val :=
  Nat.mod_eq_of_lt (k.isLt.trans_le h)

theorem ofBool_eq_ite (b : Bool) : BitVec.ofBool b = if b then 1#1 else 0#1 := by cases b <;> rfl

/-! ## The event outputs (R63) -/

theorem isFrameOk_iff {e : Event} : e.isFrameOk = true ↔ ∃ cmd len, e = .frameOk cmd len := by
  cases e <;> simp [Event.isFrameOk]

theorem isCrcErr_iff {e : Event} : e.isCrcErr = true ↔ ∃ cmd, e = .crcErr cmd := by
  cases e <;> simp [Event.isCrcErr]

theorem isTxReady_iff {e : Event} : e.isTxReady = true ↔ ∃ len, e = .txReady len := by
  cases e <;> simp [Event.isTxReady]

theorem isIoutUpdate_iff {e : Event} : e.isIoutUpdate = true ↔ ∃ x, e = .ioutUpdate x := by
  cases e <;> simp [Event.isIoutUpdate]

/-! ## The table port (R55, R82) -/

theorem memRead_two {p : Params} (m : Memory) {a : Nat} (hp : p.wf = true) (h : a + 2 ≤ p.tblBytes) :
    memRead p m a 2 = some ((m.get a).toNat + 256 * (m.get (a + 1)).toNat) :=
  memRead_eq m (tblBytes_le_of_wf hp) 2 a h

theorem memRead_four {p : Params} (m : Memory) {a : Nat} (hp : p.wf = true) (h : a + 4 ≤ p.tblBytes) :
    memRead p m a 4 = some (tblWord m a) := by
  rw [memRead_eq m (tblBytes_le_of_wf hp) 4 a h]
  simp only [List.range'_succ, List.range'_zero, List.map_cons, List.map_nil, leNumber, tblWord, Option.some.injEq,
    Nat.add_assoc, Nat.reduceAdd]
  omega

/-! ## The obligations -/

/-- Settles O10: the read ports answer 0 because every array is filled with 0 at reset. -/
theorem resetStateIsThatOfR64 : Obligations.ResetStateIsThatOfR64 := by
  refine ⟨rfl, rfl, fun a => ?_, fun a => ?_, fun a => ?_, fun a => ?_, fun a => ?_⟩
  · exact Vector.getElem_replicate _
  · exact Vector.getElem_replicate _
  · unfold txBufRdata
    split
    · exact Vector.getElem_replicate _
    · rfl
  · unfold medRdata
    split
    · exact Vector.getElem_replicate _
    · rfl
  · exact Vector.getElem_replicate _

/-- Settles O11: codes, flags and counts fit their status ports, and every other port is one of the lemmas above. -/
theorem readPortsGiveTheEntryOrZero : Obligations.ReadPortsGiveTheEntryOrZero := by
  refine ⟨?status, fun s => ⟨txBufRdata_eq s, medRdata_eq s, rxBufRdata_eq s, txPlRdata_eq s, mafRdata_eq s⟩,
    fun s => ⟨isFrameOk_iff, isCrcErr_iff, isTxReady_iff, isIoutUpdate_iff⟩,
    fun p m a hp => ⟨fun ha => ?table, memRead_two m hp, memRead_four m hp⟩⟩
  case status =>
    rintro s _ rfl
    refine ⟨?rc, rfl, ?rxState, rfl, rfl, rfl, rfl, rfl, ?rxEvt, ofBool_eq_ite _, rfl,
      ofNat_val_toNat (by decide) _, ofNat_val_toNat (by decide) _, rfl, ofNat_val_toNat (by decide) _,
      ofNat_val_toNat (by decide) _, rfl, ofBool_eq_ite _, rfl, rfl, rfl, rfl, rfl, rfl⟩
    case rc =>
      show s.rc.code = _
      cases s.rc <;> rfl
    case rxState =>
      show s.rxState.code.toNat = _
      cases s.rxState <;> rfl
    case rxEvt =>
      show s.rxEvt.code.toNat = _
      cases s.rxEvt <;> rfl
  case table =>
    have haddr := tblAddr_toNat (tblBytes_le_of_wf hp) ha
    exact ⟨haddr, by rw [tblRdata, haddr]⟩

end Sys2Proof.Machine
end

section
/-! The table memory (20_memory.md R80): no op writes it, nor anything else outside the units, and its canonical form is one
for each contents. -/

namespace Sys2Proof.Machine

/-! ## What an op leaves unchanged outside the units -/

/-- `t` holds the table, the parameters, the inputs to come and the record of a table change that `s` holds. -/
structure OutsideKept (s t : State) : Prop where
  tbl : t.tbl = s.tbl
  params : t.params = s.params
  inputs : t.inputs = s.inputs
  tblRace : t.tblRace = s.tblRace

theorem outsideKept_rxAwaitingHead (d : Byte) (s : State) : OutsideKept s (rxAwaitingHead d s) := by
  unfold rxAwaitingHead
  split
  · exact ⟨rfl, rfl, rfl, rfl⟩
  · exact ⟨rfl, rfl, rfl, rfl⟩

theorem outsideKept_rxAwaitingTail (d : Byte) (s : State) : OutsideKept s (rxAwaitingTail d s) := by
  unfold rxAwaitingTail
  split
  · split
    · exact ⟨rfl, rfl, rfl, rfl⟩
    · exact ⟨rfl, rfl, rfl, rfl⟩
  · exact ⟨rfl, rfl, rfl, rfl⟩

/-- A byte received writes fields of the parser and the event only (R202). -/
theorem outsideKept_rxCase (d : Byte) (s : State) : OutsideKept s (rxCase d s) := by
  unfold rxCase
  cases s.rxState with
  | awaitingHead => exact outsideKept_rxAwaitingHead d s
  | gotCmd | gotLen | collectingPayload | gotCrcLow | gotCrcHigh => exact ⟨rfl, rfl, rfl, rfl⟩
  | awaitingTail => exact outsideKept_rxAwaitingTail d s

theorem outsideKept_exec {i : Instr} {s t : State} (hx : exec i s = .next t) : OutsideKept s t := by
  cases i with
  | nop | crcInit | crcByte | rxReset | txPlWrite | txAck | txData | txReport | medPush | medClear | mafPush | mafClear
  | mapSetT4 | mapSetT20 | mapCalc | mapUpdate | mapSetCurrent =>
    cases hx
    exact ⟨rfl, rfl, rfl, rfl⟩
  | rxFeed d =>
    cases hx
    exact { outsideKept_rxCase d { s with rxEvt := .none } with }
  | medEval | medMaf =>
    cases hx
    split
    · exact ⟨rfl, rfl, rfl, rfl⟩
    · exact ⟨rfl, rfl, rfl, rfl⟩
  | lutVerify =>
    rcases execLutVerify_cases hx with ⟨-, rfl⟩ | ⟨-, ok, -, rfl⟩
    · exact ⟨rfl, rfl, rfl, rfl⟩
    · exact ⟨rfl, rfl, rfl, rfl⟩
  | lutLookup v =>
    rcases execLutLookup_cases hx with ⟨-, rfl⟩ | ⟨-, -, k, -, rfl⟩ | ⟨-, -, rfl⟩
    · exact ⟨rfl, rfl, rfl, rfl⟩
    · exact ⟨rfl, rfl, rfl, rfl⟩
    · exact ⟨rfl, rfl, rfl, rfl⟩

/-- Settles O15: the table is the same data, so every byte of it reads as before. -/
theorem noOpWritesTheTable : Obligations.NoOpWritesTheTable := fun _ _ _ hx => by
  obtain ⟨htbl, hparams, hinputs, hrace⟩ := outsideKept_exec hx
  exact ⟨fun a => by rw [htbl], hparams, hinputs, hrace⟩

/-! ## Canonical memories -/

namespace Memory

variable {lo lo' k k' : Nat} {b b' : Byte} {rest rest' : Memory}

theorem wfFrom_cons :
    Memory.wfFrom lo ((k, b) :: rest) = true ↔ lo ≤ k ∧ b ≠ blankByte ∧ Memory.wfFrom (k + 1) rest = true := by
  simp only [Memory.wfFrom, Bool.and_eq_true, decide_eq_true_eq, bne_iff_ne, and_assoc]

theorem get_cons_self : Memory.get ((k, b) :: rest) k = b := if_pos rfl

/-- The first entry listed is seen, because it is no blank byte. -/
theorem get_head_ne_blank (hw : Memory.wfFrom lo ((k, b) :: rest) = true) : Memory.get ((k, b) :: rest) k ≠ blankByte := by
  obtain ⟨-, hb, -⟩ := wfFrom_cons.mp hw
  rwa [get_cons_self]

theorem get_cons_of_ne {a : Nat} (h : k ≠ a) : Memory.get ((k, b) :: rest) a = rest.get a := if_neg h

/-- A canonical memory begins no earlier than one that it reads alike: below its first address the other one reads as blank. -/
theorem head_le_of_get_eq (hw : Memory.wfFrom lo ((k, b) :: rest) = true)
    (hw' : Memory.wfFrom lo' ((k', b') :: rest') = true)
    (hget : ∀ a, Memory.get ((k, b) :: rest) a = Memory.get ((k', b') :: rest') a) : k' ≤ k := by
  obtain ⟨-, hlisted'⟩ := wfFrom_cons.mp hw'
  by_contra hlt
  have hblank := Memory.get_eq_blank (not_le.mp hlt) _ (wfFrom_cons.mpr ⟨le_rfl, hlisted'⟩)
  exact get_head_ne_blank hw ((hget k).trans hblank)

/-- At the address of the first entry both rests read as blank, and everywhere else that entry hides nothing of them. -/
theorem get_rest_eq (hw : Memory.wfFrom (k + 1) rest = true) (hw' : Memory.wfFrom (k + 1) rest' = true)
    (hget : ∀ a, Memory.get ((k, b) :: rest) a = Memory.get ((k, b') :: rest') a) (a : Nat) :
    rest.get a = rest'.get a := by
  by_cases ha : k = a
  · subst ha
    exact (Memory.get_eq_blank k.lt_succ_self _ hw).trans (Memory.get_eq_blank k.lt_succ_self _ hw').symm
  · have h := hget a
    rwa [get_cons_of_ne ha, get_cons_of_ne ha] at h

/-- A canonical memory is determined by what it reads, whatever bounds its addresses from below. -/
theorem eq_of_get_eq : ∀ {m m' : Memory} {lo lo' : Nat}, Memory.wfFrom lo m = true → Memory.wfFrom lo' m' = true →
    (∀ a, m.get a = m'.get a) → m = m'
  | [], [], _, _, _, _, _ => rfl
  | [], (k, _) :: _, _, _, _, hw', hget => absurd (hget k).symm (get_head_ne_blank hw')
  | (k, _) :: _, [], _, _, hw, _, hget => absurd (hget k) (get_head_ne_blank hw)
  | (k, b) :: rest, (k', b') :: rest', _, _, hw, hw', hget => by
    obtain rfl : k = k' := le_antisymm (head_le_of_get_eq hw' hw fun a => (hget a).symm) (head_le_of_get_eq hw hw' hget)
    obtain rfl : b = b' := get_cons_self.symm.trans ((hget k).trans get_cons_self)
    obtain ⟨-, -, hrest⟩ := wfFrom_cons.mp hw
    obtain ⟨-, -, hrest'⟩ := wfFrom_cons.mp hw'
    rw [eq_of_get_eq hrest hrest' (get_rest_eq hrest hrest' hget)]

end Memory

/-- Settles O16, by recursion on both lists: they begin with the same entry, and their rests read alike again. -/
theorem memoriesThatReadAlikeAreEqual : Obligations.MemoriesThatReadAlikeAreEqual := fun _ _ => Memory.eq_of_get_eq

end Sys2Proof.Machine
end

section
/-! The command bundle (30_encoding.md R120 to R126): what an op reads of a bundle is what its encoding holds, so decoder and
encoder agree on every bundle once the fields that its op does not read are set to zero. -/

namespace Sys2Proof.Machine

open Laws.CanonicalEncoding (opField_pack immField_pack aField_pack bField_pack cField_pack)

/-! ## Fields of a bundle (R121) -/

theorem pack_fields (w : Bundle) : packBundle (opField w) (immField w) (aField w) (bField w) (cField w) = w := by
  simp (disch := rfl) only [packBundle, opField, immField, aField, bField, cField,
    BitVec.extractLsb'_append_extractLsb'_eq_extractLsb']
  exact BitVec.extractLsb'_eq_self

theorem aByte_pack_byte (op imm d : Byte) (b c : B32) : aByte (packBundle op imm (d.setWidth 32) b c) = d := by
  rw [aByte, aField_pack, BitVec.extractLsb'_setWidth_of_le (by decide), BitVec.extractLsb'_eq_self]

/-- The low `n` bits of a word, zeros above. -/
def lowBits (n : Nat) (x : B32) : B32 := BitVec.ofNat 32 (x.toNat % 2 ^ n)

theorem lowBits_zero (x : B32) : lowBits 0 x = 0 := by simp [lowBits, Nat.mod_one]

theorem lowBits_of_lt {n : Nat} {x : B32} (h : x.toNat < 2 ^ n) : lowBits n x = x := by
  rw [lowBits, Nat.mod_eq_of_lt h, BitVec.ofNat_toNat, BitVec.setWidth_eq]

theorem lowBits_word (x : B32) : lowBits 32 x = x := lowBits_of_lt x.isLt

theorem lowBits_aField (w : Bundle) : lowBits 8 (aField w) = (aByte w).setWidth 32 := by
  apply BitVec.eq_of_toNat_eq
  simp [lowBits, aByte]

/-- The bundle `w` with zeros in what an op that reads the fields `f` does not read: "unread fields should be written as
zero" (R125, R140). -/
def zeroUnread (f : FieldsRead) (w : Bundle) : Bundle :=
  packBundle (opField w) (if f.imm then immField w else 0) (lowBits f.aBits (aField w))
    (if f.bc then bField w else 0) (if f.bc then cField w else 0)

theorem opField_zeroUnread (f : FieldsRead) (w : Bundle) : opField (zeroUnread f w) = opField w := opField_pack ..

/-- Only the fields read are left. -/
theorem zeroUnread_congr {f : FieldsRead} {w w' : Bundle} (hop : opField w = opField w')
    (himm : f.imm = true → immField w = immField w')
    (ha : (aField w).toNat % 2 ^ f.aBits = (aField w').toNat % 2 ^ f.aBits)
    (hbc : f.bc = true → bField w = bField w' ∧ cField w = cField w') : zeroUnread f w = zeroUnread f w' := by
  rw [zeroUnread, zeroUnread, hop, lowBits, lowBits, ha, ite_congr rfl himm fun _ => rfl,
    ite_congr rfl (fun h => (hbc h).1) fun _ => rfl, ite_congr rfl (fun h => (hbc h).2) fun _ => rfl]

theorem zeroUnread_of_wellFormed {w : Bundle} (hw : w.wellFormed = true) :
    ∃ f, fieldsRead (opField w) = some f ∧ zeroUnread f w = w := by
  unfold Bundle.wellFormed at hw
  split at hw
  · cases hw
  · rename_i f hf
    simp only [Bool.and_eq_true, Bool.or_eq_true, beq_iff_eq, decide_eq_true_eq] at hw
    obtain ⟨⟨himm, ha⟩, hbc⟩ := hw
    have hi : (if f.imm then immField w else 0) = immField w := ite_eq_left_iff.mpr fun h => (himm.resolve_left h).symm
    have hb : (if f.bc then bField w else 0) = bField w := ite_eq_left_iff.mpr fun h => (hbc.resolve_left h).1.symm
    have hc : (if f.bc then cField w else 0) = cField w := ite_eq_left_iff.mpr fun h => (hbc.resolve_left h).2.symm
    exact ⟨f, hf, by rw [zeroUnread, hi, lowBits_of_lt ha, hb, hc, pack_fields]⟩

/-! ## The decoder -/

/-- The op codes of the op map (R123). -/
def assignedOpCodes : List Nat :=
  [0x00, 0x10, 0x11, 0x20, 0x21, 0x30, 0x31, 0x32, 0x33, 0x40, 0x41, 0x42, 0x50, 0x51, 0x52, 0x60, 0x61, 0x70, 0x71, 0x72,
    0x73, 0x74]

theorem fieldsRead_eq_none_iff : ∀ {op : Byte}, fieldsRead op = none ↔ op.toNat ∉ assignedOpCodes := by decide

theorem decode_of_unassigned {w : Bundle} (h : (opField w).toNat ∉ assignedOpCodes) :
    decode w = .error (.illegalOp (opField w)) := by
  simp only [assignedOpCodes, List.mem_cons, List.not_mem_nil, or_false, not_or] at h
  simp [decode, h]

/-- Every row of R123 reads exactly the fields that `fieldsRead` lists for it: they are the operands of the op, and encoding
writes them back to where they stood. -/
theorem decode_of_fieldsRead {w : Bundle} {f : FieldsRead} (hf : fieldsRead (opField w) = some f) :
    ∃ i, decode w = .ok i ∧ encode i = zeroUnread f w := by
  unfold fieldsRead at hf
  split at hf
  case h_23 => cases hf
  all_goals
    rename_i hcode
    cases hf
    have hop := congrArg (BitVec.ofNat 8) hcode
    rw [BitVec.ofNat_toNat, BitVec.setWidth_eq] at hop
    refine ⟨_, by rw [decode, hcode]; rfl, ?_⟩
    simp [encode, zeroUnread, hop, lowBits_zero, lowBits_aField, lowBits_word]

theorem opField_encode_of_decode {w : Bundle} {i : Instr} (h : decode w = .ok i) : opField (encode i) = opField w := by
  cases hf : fieldsRead (opField w) with
  | none =>
    have herr := decode_of_unassigned (fieldsRead_eq_none_iff.mp hf)
    cases h.symm.trans herr
  | some f =>
    obtain ⟨j, hj, henc⟩ := decode_of_fieldsRead hf
    cases h.symm.trans hj
    rw [henc, opField_zeroUnread]

/-- Settles O1. The cases are the sets of fields an op can read (R123). -/
theorem decodeOfEncodeIsTheOp : Obligations.DecodeOfEncodeIsTheOp := fun i => by
  cases i with
  | nop | crcInit | rxReset | medEval | medClear | mafClear | medMaf | lutVerify => simp [encode, decode, opField_pack]
  | crcByte | rxFeed => simp [encode, decode, opField_pack, immField_pack]
  | txPlWrite | txAck | txData => simp [encode, decode, opField_pack, immField_pack, aByte_pack_byte]
  | txReport => simp [encode, decode, opField_pack, immField_pack, aField_pack, bField_pack, cField_pack]
  | medPush | mafPush | lutLookup | mapSetT4 | mapSetT20 | mapCalc | mapUpdate | mapSetCurrent =>
    simp [encode, decode, opField_pack, aField_pack]

/-- Settles O2: in a well-formed bundle there is nothing to set to zero. -/
theorem encodeOfDecodeIsTheBundle : Obligations.EncodeOfDecodeIsTheBundle := fun w hw => by
  obtain ⟨f, hf, hzero⟩ := zeroUnread_of_wellFormed hw
  obtain ⟨i, hdec, henc⟩ := decode_of_fieldsRead hf
  exact ⟨i, hdec, henc.trans hzero⟩

/-- What an op does not read may as well be zero: both bundles are read as the op that the second one encodes. -/
theorem decode_zeroUnread {w : Bundle} {f : FieldsRead} (hf : fieldsRead (opField w) = some f) :
    decode (zeroUnread f w) = decode w := by
  obtain ⟨i, hdec, henc⟩ := decode_of_fieldsRead hf
  rw [hdec, ← henc, decodeOfEncodeIsTheOp]

/-- Settles O3: the two bundles are the same once what their op does not read is set to zero. -/
theorem unreadFieldsGiveTheSameResult : Obligations.UnreadFieldsGiveTheSameResult := fun w w' hop hread => by
  have hdec : decode w = decode w' := by
    cases hf : fieldsRead (opField w) with
    | none =>
      have hcode := fieldsRead_eq_none_iff.mp hf
      rw [decode_of_unassigned hcode, decode_of_unassigned (hop ▸ hcode), hop]
    | some f =>
      obtain ⟨himm, ha, hbc⟩ := hread f hf
      rw [← decode_zeroUnread hf, zeroUnread_congr hop himm ha hbc, decode_zeroUnread (hop ▸ hf)]
  exact ⟨hdec, fun s => by rw [runBundle, runBundle, hdec]⟩

/-! ## Units and unassigned op codes -/

/-- The code that the encoder writes for an op stands in the row of the op's unit (R122, R123). -/
theorem unitOfOp_encode (i : Instr) : unitOfOp (opField (encode i)) = some (unitOf i) := by
  cases i <;> rw [encode, opField_pack] <;> rfl

theorem unitOfOp_eq_none {op : Byte} (h : 8 ≤ (op.extractLsb' 4 4).toNat) : unitOfOp op = none := by
  unfold unitOfOp
  split
  case h_9 => rfl
  all_goals omega

/-- Settles O4: an op's code is that of its encoding. -/
theorem unitIsTheHighNibbleOfTheOpCode : Obligations.UnitIsTheHighNibbleOfTheOpCode := by
  have hunit (w i) (h : decode w = .ok i) : unitOfOp (opField w) = some (unitOf i) :=
    opField_encode_of_decode h ▸ unitOfOp_encode i
  refine ⟨hunit, fun w hw => ?_⟩
  cases hd : decode w with
  | error e => exact ⟨e, rfl⟩
  | ok i => cases (unitOfOp_eq_none hw).symm.trans (hunit w i hd)

/-- Settles O5: the 256 op codes are evaluated, and an unassigned one is answered by the decoder's error in every state. -/
theorem unassignedOpCodesWriteOnlyIllegalOp : Obligations.UnassignedOpCodesWriteOnlyIllegalOp :=
  ⟨by decide +kernel, fun _ s h => runBundle_of_decode_error (decode_of_unassigned h) s⟩

/-- Settles O6, by evaluation. -/
theorem sampleBundlesDecode : Obligations.SampleBundlesDecode := ⟨rfl, rfl, rfl, rfl, rfl⟩

end Sys2Proof.Machine
end

section
/-! NOP (40_control.md R160): every bundle with its op code is NOP, and the frame of NOP is the whole state but `rc`. -/

namespace Sys2Proof.Machine

/-- NOP reads no field but the op code (R123, R125). -/
theorem decode_eq_nop {w : Bundle} (hop : opField w = 0x00) : decode w = .ok .nop := by
  rw [decode, hop]
  rfl

/-- The record update shows the frame: `rx_evt`, `rx_fv` and the event port are kept. -/
theorem execNop_eq (s : State) : execNop s = .next { s with rc := .ok } := rfl

/-- Settles O17: the row of the op map, and the arm of `exec` with its frame. -/
theorem nopWritesOnlyRc : Obligations.NopWritesOnlyRc :=
  ⟨fun _ hop => decode_eq_nop hop, fun s => (exec_nop s).trans (execNop_eq s)⟩

end Sys2Proof.Machine
end

section
/-! The CRC16 generator (41_crc16.md). One shift of R180 is linear over GF(2) and mirrors a shift of the catalogue's normal
form, so the byte step and the fold over a byte sequence inherit both. -/

namespace Sys2Proof.Machine

/-! ## Words: their bytes, and their bits in mirrored order -/

theorem zext16_xor (d e : Byte) : zext16 (d ^^^ e) = zext16 d ^^^ zext16 e := BitVec.setWidth_xor

theorem high_xor_low (c : Half) : (c >>> 8 <<< 8) ^^^ zext16 (c.extractLsb' 0 8) = c := by
  apply BitVec.eq_of_getLsbD_eq
  intro i hi
  by_cases h : i < 8
  · simp [zext16, h, hi]
  · simp [zext16, h, hi, Nat.add_sub_cancel' (not_lt.mp h)]

theorem reverse_xor {n : Nat} (x y : BitVec n) : (x ^^^ y).reverse = x.reverse ^^^ y.reverse := by
  apply BitVec.eq_of_getLsbD_eq
  intro i _
  simp [BitVec.getLsbD_reverse, BitVec.getMsbD_xor]

theorem reverse_shiftLeft {n : Nat} (x : BitVec n) (k : Nat) : (x <<< k).reverse = x.reverse >>> k := by
  apply BitVec.eq_of_getLsbD_eq
  intro i _
  simp [BitVec.getLsbD_reverse, BitVec.getMsbD_shiftLeft, Nat.add_comm]

/-- The input reflected by the catalogue's step enters a mirrored word at the bottom, as it is (R181). -/
theorem reverse_reflectedByte (d : Byte) : (d.reverse.setWidth 16 <<< 8).reverse = zext16 d := by
  apply BitVec.eq_of_getLsbD_eq
  intro i hi
  simp [zext16, reverse_shiftLeft, BitVec.getLsbD_reverse, BitVec.getMsbD_setWidth, BitVec.getMsbD_reverse, hi]

/-! ## One shift -/

theorem crcShift_of_lsb_false {c : Half} (h : c.getLsbD 0 = false) : crcShift c = c >>> 1 := by
  rw [crcShift, h, if_neg Bool.false_ne_true]

/-- The polynomial enters where one of the bits tested is set, and cancels where both are. -/
theorem crcShift_xor (a b : Half) : crcShift (a ^^^ b) = crcShift a ^^^ crcShift b := by
  simp only [crcShift, BitVec.getLsbD_xor, BitVec.ushiftRight_xor_distrib]
  cases a.getLsbD 0 <;> cases b.getLsbD 0
  case false.false => rfl
  case false.true => exact BitVec.xor_assoc ..
  case true.false =>
    show a >>> 1 ^^^ b >>> 1 ^^^ crcPoly = (a >>> 1 ^^^ crcPoly) ^^^ b >>> 1
    ac_rfl
  case true.true =>
    show a >>> 1 ^^^ b >>> 1 = (a >>> 1 ^^^ crcPoly) ^^^ (b >>> 1 ^^^ crcPoly)
    rw [BitVec.xor_comm (b >>> 1), BitVec.xor_assoc, ← BitVec.xor_assoc crcPoly, BitVec.xor_self, BitVec.zero_xor]

theorem crcShift_iterate_xor (n : Nat) (a b : Half) : crcShift^[n] (a ^^^ b) = crcShift^[n] a ^^^ crcShift^[n] b :=
  Function.Semiconj₂.iterate crcShift_xor n a b

/-- Zeros in the low bits are shifted out, and the polynomial never enters. -/
theorem crcShift_iterate_of_low_zero {c : Half} : ∀ {n : Nat}, (∀ i < n, c.getLsbD i = false) → crcShift^[n] c = c >>> n
  | 0, _ => rfl
  | n + 1, h => by
    rw [Function.iterate_succ_apply', crcShift_iterate_of_low_zero fun i hi => h i (hi.trans n.lt_succ_self),
      crcShift_of_lsb_false (by simpa using h n n.lt_succ_self), BitVec.shiftRight_add]

/-- 0x8005 mirrored is 0xA001 (R181). -/
theorem reverse_crcNormalShift : Function.Semiconj BitVec.reverse crcNormalShift crcShift := by
  intro c
  have hpoly : (0x8005#16).reverse = crcPoly := by decide
  have hbit : c.reverse.getLsbD 0 = c.msb := by rw [BitVec.getLsbD_reverse, BitVec.msb]
  rw [crcShift, hbit, crcNormalShift]
  split
  · rw [reverse_xor, reverse_shiftLeft, hpoly]
  · exact reverse_shiftLeft c 1

/-! ## One byte -/

theorem crc16Step_eq_iterate (c : Half) (d : Byte) : crc16Step c d = crcShift^[8] (c ^^^ zext16 d) := rfl

theorem crc16Step_xor (a b : Half) (d e : Byte) : crc16Step (a ^^^ b) (d ^^^ e) = crc16Step a d ^^^ crc16Step b e := by
  rw [crc16Step_eq_iterate, crc16Step_eq_iterate, crc16Step_eq_iterate, ← crcShift_iterate_xor, zext16_xor]
  congr 1
  ac_rfl

theorem reverse_crcNormalStep (c : Half) (d : Byte) : (crcNormalStep c d).reverse = crc16Step c.reverse d := by
  rw [crcNormalStep, reverse_crcNormalShift.iterate_right 8, reverse_xor, reverse_reflectedByte, crc16Step_eq_iterate]

/-- A high byte has zeros below it, so eight shifts only bring it down. -/
theorem crcShift_iterate_high (c : Half) : crcShift^[8] (c >>> 8 <<< 8) = c >>> 8 := by
  rw [crcShift_iterate_of_low_zero fun i hi => by simp [hi]]
  apply BitVec.eq_of_getLsbD_eq
  intro i _
  simpa using BitVec.lt_of_getLsbD

theorem crc16Step_zero (d : Byte) : crc16Step 0x0000#16 d = crcShift^[8] (zext16 d) := by
  rw [crc16Step_eq_iterate, BitVec.zero_xor]

/-- Settles O20: the high byte is only shifted down; the low byte meets the data byte. -/
theorem crcStepIsTableDriven : Obligations.CrcStepIsTableDriven := fun c d => by
  calc crc16Step c d
      = crcShift^[8] ((c >>> 8 <<< 8) ^^^ zext16 (c.extractLsb' 0 8 ^^^ d)) := by
        rw [zext16_xor, ← BitVec.xor_assoc, high_xor_low, crc16Step_eq_iterate]
    _ = (c >>> 8) ^^^ crc16Step 0x0000#16 (c.extractLsb' 0 8 ^^^ d) := by
        rw [crcShift_iterate_xor, crcShift_iterate_high, crc16Step_zero]

/-! ## Byte sequences -/

theorem crcModbus_eq_crc16 (bytes : List Byte) : crcModbus bytes = crc16 bytes := by
  have hinit : (0xFFFF#16).reverse = crcInitValue := by decide
  rw [crcModbus, crc16, ← hinit]
  exact (List.foldl_hom BitVec.reverse fun c d => (reverse_crcNormalStep c d).symm).symm

theorem foldl_crc16Step_xor : ∀ {x y : List Byte} (a b : Half), x.length = y.length →
    (List.zipWith (· ^^^ ·) x y).foldl crc16Step (a ^^^ b) = x.foldl crc16Step a ^^^ y.foldl crc16Step b
  | [], [], _, _, _ => rfl
  | d :: x, e :: y, a, b, h => by
    simp only [List.zipWith_cons_cons, List.foldl_cons, crc16Step_xor]
    exact foldl_crc16Step_xor _ _ (Nat.succ.inj h)

/-- Two CRCs differ as the sequences do: the initial value is gone from the difference. -/
theorem crc16_xor_crc16 {x y : List Byte} (h : x.length = y.length) :
    crc16 x ^^^ crc16 y = (List.zipWith (· ^^^ ·) x y).foldl crc16Step 0x0000#16 :=
  (foldl_crc16Step_xor crcInitValue crcInitValue h).symm

theorem zipWith_xor_zeros (l : List Byte) : List.zipWith (· ^^^ ·) l (List.replicate l.length 0x00#8) = l :=
  List.ext_getElem (by simp) (by simp)

/-- Settles O21: both sides differ from the CRC of zeros by the fold from 0 over the XOR of the sequences. -/
theorem crcIsAffine : Obligations.CrcIsAffine := fun x y h => by
  have hlen : (List.zipWith (· ^^^ ·) x y).length = x.length := by simp [h]
  have hzeros := crc16_xor_crc16 (x := List.zipWith (· ^^^ ·) x y) (List.length_replicate (a := 0x00#8)).symm
  rw [zipWith_xor_zeros, hlen, ← crc16_xor_crc16 h] at hzeros
  rw [← hzeros, BitVec.xor_assoc, BitVec.xor_self, BitVec.xor_zero]

/-! ## The ops -/

/-- CRC_INIT reads no field but the op code (R182). -/
theorem decode_eq_crcInit {w : Bundle} (hop : opField w = 0x10) : decode w = .ok .crcInit := by
  rw [decode, hop]
  rfl

/-- CRC_BYTE reads `imm` (R183). -/
theorem decode_eq_crcByte {w : Bundle} (hop : opField w = 0x11) : decode w = .ok (.crcByte (immField w)) := by
  rw [decode, hop]
  rfl

theorem execCrcInit_eq (s : State) : execCrcInit s = .next { s with crcAcc := crcInitValue, rc := .ok } := rfl

theorem execCrcByte_eq (d : Byte) (s : State) :
    execCrcByte d s = .next { s with crcAcc := crc16Step s.crcAcc d, rc := .ok } := rfl

/-- Settles O18: the rows of the op map, and the arms of `exec` with their frames. -/
theorem crcOpsWriteTheAccumulator : Obligations.CrcOpsWriteTheAccumulator :=
  ⟨fun _ => decode_eq_crcInit, fun _ => decode_eq_crcByte,
    fun s => ⟨(exec_crcInit s).trans (execCrcInit_eq s), fun d => (exec_crcByte d s).trans (execCrcByte_eq d s)⟩⟩

theorem execList_crcBytes (s : State) : ∀ (bytes : List Byte) (c : Half),
    execList (bytes.map .crcByte) { s with crcAcc := c, rc := .ok } =
      .next { s with crcAcc := bytes.foldl crc16Step c, rc := .ok }
  | [], _ => rfl
  | d :: bytes, c => by
    simp only [List.map_cons, execList, exec_crcByte, execCrcByte_eq, List.foldl_cons]
    exact execList_crcBytes s bytes (crc16Step c d)

/-- Settles O19: the ops leave the fold of R181, which mirrors the catalogue's. -/
theorem crcOfBytesIsCrc16Modbus : Obligations.CrcOfBytesIsCrc16Modbus := fun bytes s => by
  rw [crcModbus_eq_crc16, Pseudo.expand, execList, exec_crcInit, execCrcInit_eq]
  exact execList_crcBytes s bytes crcInitValue

end Sys2Proof.Machine
end

section
/-! The frame parser (42_frame_parser.md), op by op: RX_FEED's equation for each row of the table of R211, and what any op can
do to the parser's state. The later sections go through these equations. -/

namespace Sys2Proof.Machine

/-! ## RX_FEED -/

/-- RX_FEED reads `imm` (R202). -/
theorem decode_eq_rxFeed {w : Bundle} (hop : opField w = 0x20) : decode w = .ok (.rxFeed (immField w)) := by
  rw [decode, hop]
  rfl

/-- The state after RX_FEED `d`, which no byte and no state refuses. -/
def rxFed (s : State) (d : Byte) : State := (rxCase d { s with rxEvt := .none }).setRc .ok

theorem exec_rxFeed_eq_rxFed (d : Byte) (s : State) : exec (.rxFeed d) s = .next (rxFed s d) := rfl

theorem high_or_low (d : Byte) (c : Half) : (zext16 d <<< 8) ||| zext16 (lowByte c) = d ++ lowByte c :=
  BitVec.setWidth_append_eq_shiftLeft_setWidth_or.symm.trans (BitVec.setWidth_eq _)

section
variable {s : State} {d : Byte}

theorem rxFed_awaitingHead_of_ne (hst : s.rxState = .awaitingHead) (hd : d ≠ headMarker) :
    rxFed s d = { s with rxEvt := .none, rc := .ok } := by
  simp only [rxFed, rxCase, hst, rxAwaitingHead, if_neg hd, State.setRc]

theorem rxFed_awaitingHead_head (hst : s.rxState = .awaitingHead) :
    rxFed s headMarker =
      { s with rxEvt := .none, rc := .ok, rxFv := false, rxIdx := 0, rxCrcCalc := crcInitValue, rxState := .gotCmd } := by
  simp only [rxFed, rxCase, hst, rxAwaitingHead, if_pos, State.setRc]

theorem rxFed_gotCmd (hst : s.rxState = .gotCmd) :
    rxFed s d =
      { s with rxEvt := .none, rc := .ok, rxCmd := d, rxCrcCalc := crc16Step s.rxCrcCalc d, rxState := .gotLen } := by
  simp only [rxFed, rxCase, hst, rxGotCmd, State.setRc]

/-- A length of 0 goes straight to the trailer (R208). -/
theorem rxFed_gotLen (hst : s.rxState = .gotLen) :
    rxFed s d =
      { s with rxEvt := .none, rc := .ok, rxLen := d, rxIdx := 0, rxCrcCalc := crc16Step s.rxCrcCalc d,
               rxState := if d = 0x00#8 then .gotCrcLow else .collectingPayload } := by
  simp only [rxFed, rxCase, hst, rxGotLen, State.setRc, BitVec.ofNat_eq_ofNat]

/-- The index is a `u8`, so the entry written always exists. -/
theorem rxFed_collectingPayload (hst : s.rxState = .collectingPayload) :
    rxFed s d =
      { s with rxEvt := .none, rc := .ok, rxBuf := s.rxBuf.setIfInBounds s.rxIdx.toNat d, rxIdx := s.rxIdx + 1,
               rxCrcCalc := crc16Step s.rxCrcCalc d,
               rxState := if s.rxIdx + 1 = s.rxLen then .gotCrcLow else .collectingPayload } := by
  have hbuf : s.rxBuf.setIfInBounds s.rxIdx.toNat d = s.rxBuf.set s.rxIdx.toNat d s.rxIdx.isLt := by
    rw [Vector.setIfInBounds, Vector.set]
    congr 1
    exact dif_pos _
  simp only [rxFed, rxCase, hst, rxCollectingPayload, State.setRc, hbuf]

theorem rxFed_gotCrcLow (hst : s.rxState = .gotCrcLow) :
    rxFed s d = { s with rxEvt := .none, rc := .ok, rxCrcRx := zext16 d, rxState := .gotCrcHigh } := by
  simp only [rxFed, rxCase, hst, rxGotCrcLow, State.setRc]

theorem rxFed_gotCrcHigh (hst : s.rxState = .gotCrcHigh) :
    rxFed s d = { s with rxEvt := .none, rc := .ok, rxCrcRx := d ++ lowByte s.rxCrcRx, rxState := .awaitingTail } := by
  simp only [rxFed, rxCase, hst, rxGotCrcHigh, State.setRc, high_or_low]

theorem rxFed_awaitingTail_match (hst : s.rxState = .awaitingTail) (hcrc : s.rxCrcRx = s.rxCrcCalc) :
    rxFed s tailMarker =
      { s with rxEvt := .frameOk, rc := .ok, rxFv := true, rxState := .awaitingHead, event := .frameOk s.rxCmd s.rxLen } := by
  simp only [rxFed, rxCase, hst, rxAwaitingTail, hcrc, if_pos, State.emit, State.setRc]

theorem rxFed_awaitingTail_mismatch (hst : s.rxState = .awaitingTail) (hcrc : s.rxCrcRx ≠ s.rxCrcCalc) :
    rxFed s tailMarker =
      { s with rxEvt := .crcErr, rc := .ok, rxState := .awaitingHead, event := .crcErr s.rxCmd } := by
  simp only [rxFed, rxCase, hst, rxAwaitingTail, if_pos, if_neg hcrc, State.emit, State.setRc]

theorem rxFed_awaitingTail_of_ne (hst : s.rxState = .awaitingTail) (hd : d ≠ tailMarker) :
    rxFed s d = { s with rxEvt := .none, rc := .ok, rxState := .awaitingHead } := by
  simp only [rxFed, rxCase, hst, rxAwaitingTail, if_neg hd, State.setRc]

end

/-- Settles O22: the equations above, row by row; where the row depends on the byte or the index, the state they answer is
the branch of that row. -/
theorem rxFeedInEachState : Obligations.RxFeedInEachState := by
  refine ⟨fun _ => decode_eq_rxFeed, fun d s => ?_⟩
  simp only [exec_rxFeed_eq_rxFed, Host.Outcome.next.injEq]
  refine ⟨rxFed_awaitingHead_of_ne, ?head, rxFed_gotCmd, ?lenZero, ?lenPositive, ?payloadGoesOn, ?payloadEnds,
    rxFed_gotCrcLow, rxFed_gotCrcHigh, ?tailMatch, ?tailMismatch, rxFed_awaitingTail_of_ne⟩
  case head =>
    rintro hst rfl
    exact rxFed_awaitingHead_head hst
  case lenZero =>
    intro hst hd
    rw [rxFed_gotLen hst, if_pos hd]
  case lenPositive =>
    intro hst hd
    rw [rxFed_gotLen hst, if_neg hd]
  case payloadGoesOn =>
    intro hst hidx
    rw [rxFed_collectingPayload hst, if_neg hidx, ← hst]
  case payloadEnds =>
    intro hst hidx
    rw [rxFed_collectingPayload hst, if_pos hidx]
  case tailMatch =>
    rintro hst rfl hcrc
    exact rxFed_awaitingTail_match hst hcrc
  case tailMismatch =>
    rintro hst rfl hcrc
    exact rxFed_awaitingTail_mismatch hst hcrc

/-! ## RX_RESET -/

/-- RX_RESET reads no field but the op code (R210). -/
theorem decode_eq_rxReset {w : Bundle} (hop : opField w = 0x21) : decode w = .ok .rxReset := by
  rw [decode, hop]
  rfl

theorem execRxReset_eq (s : State) :
    execRxReset s = .next { s with rxState := .awaitingHead, rxEvt := .none, rxFv := false, rc := .ok } := rfl

/-- Settles O23: the row of the op map, and the arm of `exec` with its frame. -/
theorem rxResetAbandonsTheFrame : Obligations.RxResetAbandonsTheFrame :=
  ⟨fun _ => decode_eq_rxReset, fun s => (exec_rxReset s).trans (execRxReset_eq s)⟩

/-! ## What an op can do to the parser (R457) -/

theorem sameUnit_rx_refl (s : State) : sameUnit .rx s s := ⟨rfl, rfl, rfl, rfl, rfl, rfl, rfl, rfl, rfl⟩

/-- Every op but RX_FEED and RX_RESET leaves the parser alone. -/
theorem exec_rx_cases {i : Instr} {s t : State} (hx : exec i s = .next t) :
    (∃ d, i = .rxFeed d ∧ t = rxFed s d) ∨
    (i = .rxReset ∧ t = { s with rxState := .awaitingHead, rxEvt := .none, rxFv := false, rc := .ok }) ∨
    sameUnit .rx s t := by
  cases i with
  | rxFeed d =>
    cases hx
    exact .inl ⟨d, rfl, rfl⟩
  | rxReset =>
    cases hx
    exact .inr (.inl ⟨rfl, rfl⟩)
  | nop | crcInit | crcByte | txPlWrite | txAck | txData | txReport | medPush | medClear | mafPush | mafClear
  | mapSetT4 | mapSetT20 | mapCalc | mapUpdate | mapSetCurrent =>
    cases hx
    exact .inr (.inr (sameUnit_rx_refl s))
  | medEval | medMaf =>
    cases hx
    split
    · exact .inr (.inr (sameUnit_rx_refl s))
    · exact .inr (.inr (sameUnit_rx_refl s))
  | lutVerify =>
    rcases execLutVerify_cases hx with ⟨-, rfl⟩ | ⟨-, ok, -, rfl⟩
    · exact .inr (.inr (sameUnit_rx_refl s))
    · exact .inr (.inr (sameUnit_rx_refl s))
  | lutLookup v =>
    rcases execLutLookup_cases hx with ⟨-, rfl⟩ | ⟨-, -, k, -, rfl⟩ | ⟨-, -, rfl⟩
    · exact .inr (.inr (sameUnit_rx_refl s))
    · exact .inr (.inr (sameUnit_rx_refl s))
    · exact .inr (.inr (sameUnit_rx_refl s))

/-- Settles O24: in AwaitingHead a head marker and RX_RESET lower `rx_fv`, and every other op keeps the frame fields. -/
theorem validatedFrameIsHeld : Obligations.ValidatedFrameIsHeld := by
  intro i s t hx hst _ hfv
  obtain ⟨d, -, rfl⟩ | ⟨-, rfl⟩ | ⟨-, hcmd, hlen, -, -, -, hbuf, -, -⟩ := exec_rx_cases hx
  · by_cases hd : d = headMarker
    · subst hd
      rw [rxFed_awaitingHead_head hst] at hfv
      cases hfv
    · rw [rxFed_awaitingHead_of_ne hst hd]
      exact ⟨rfl, rfl, rfl⟩
  · cases hfv
  · exact ⟨hcmd.symm, hlen.symm, hbuf.symm⟩

end Sys2Proof.Machine
end

section
/-! What every step keeps of the frame being parsed (42_frame_parser.md R201, R206): the running CRC covers the bytes parsed so
far, and `rx_fv = 1` only over a frame whose CRC matches. -/

namespace Sys2Proof.Machine

theorem crc16_concat (bytes : List Byte) (d : Byte) : crc16 (bytes ++ [d]) = crc16Step (crc16 bytes) d :=
  List.foldl_concat ..

theorem take_succ_setIfInBounds {α : Type} {n : Nat} (v : Vector α n) {k : Nat} (h : k < n) (d : α) :
    (v.setIfInBounds k d).toList.take (k + 1) = v.toList.take k ++ [d] := by
  have hk : k < (v.toList.set k d).length := by simpa using h
  rw [Vector.toList_setIfInBounds, List.take_succ_eq_append_getElem hk, List.getElem_set_self, List.take_set_of_le le_rfl]

/-- Storing a payload byte at `rx_idx` and stepping the CRC over it go together. -/
theorem rxCrcOf_rxFed {s : State} (hst : s.rxState = .collectingPayload) (d : Byte) :
    rxCrcOf (rxFed s d) (s.rxIdx.toNat + 1) = crc16Step (rxCrcOf s s.rxIdx.toNat) d := by
  rw [rxFed_collectingPayload hst]
  simp only [rxCrcOf]
  rw [take_succ_setIfInBounds _ s.rxIdx.isLt, ← List.append_assoc, crc16_concat]

/-- A head marker opens a frame, whatever was held before (R203). -/
theorem parserInv_rxFed_head {s : State} (hst : s.rxState = .awaitingHead) : ParserInv (rxFed s headMarker) := by
  rw [rxFed_awaitingHead_head hst]
  exact
    { atCmd := fun _ => ⟨rfl, rfl⟩
      atLen := nofun
      atPayload := nofun
      atTrailer := nofun
      valid := nofun }

namespace ParserInv

variable {s t : State}

theorem of_sameUnit (h : ParserInv s) (hst : sameUnit .rx s t) : ParserInv t := by
  obtain ⟨hstate, hcmd, hlen, hidx, hcrcRx, hcrcCalc, hbuf, -, hfv⟩ := hst
  have hcrcOf : rxCrcOf t = rxCrcOf s := by
    funext k
    rw [rxCrcOf, rxCrcOf, hcmd, hlen, hbuf]
  constructor
  case atCmd => rw [← hstate, ← hcrcCalc, ← hidx]; exact h.atCmd
  case atLen => rw [← hstate, ← hcrcCalc, ← hcmd, ← hidx]; exact h.atLen
  case atPayload => rw [← hstate, ← hidx, ← hlen, ← hcrcCalc, hcrcOf]; exact h.atPayload
  case atTrailer => rw [← hstate, ← hidx, ← hlen, ← hcrcCalc, hcrcOf]; exact h.atTrailer
  case valid => rw [← hfv, ← hstate, ← hcrcRx, ← hcrcCalc, ← hlen, hcrcOf]; exact h.valid

/-- Inside a frame the flag of R38 is down. -/
theorem rxFv_eq_false (h : ParserInv s) (hst : s.rxState ≠ .awaitingHead) : s.rxFv = false :=
  Bool.eq_false_iff.mpr fun hfv => hst (h.valid hfv).1

/-! What is asked of a state is what its parser state asks, and nothing of the flag where that is down. -/

theorem of_collectingPayload (hst : s.rxState = .collectingPayload) (hfv : s.rxFv = false) (hlt : s.rxIdx < s.rxLen)
    (hcrc : s.rxCrcCalc = rxCrcOf s s.rxIdx.toNat) : ParserInv s where
  atCmd hs := nomatch hst.symm.trans hs
  atLen hs := nomatch hst.symm.trans hs
  atPayload _ := ⟨hlt, hcrc⟩
  atTrailer hs := by simp [hst] at hs
  valid hv := nomatch hfv.symm.trans hv

theorem of_trailer (hst : s.rxState = .gotCrcLow ∨ s.rxState = .gotCrcHigh ∨ s.rxState = .awaitingTail)
    (hfv : s.rxFv = false) (hidx : s.rxIdx = s.rxLen) (hcrc : s.rxCrcCalc = rxCrcOf s s.rxLen.toNat) : ParserInv s where
  atCmd hs := by simp [hs] at hst
  atLen hs := by simp [hs] at hst
  atPayload hs := by simp [hs] at hst
  atTrailer _ := ⟨hidx, hcrc⟩
  valid hv := nomatch hfv.symm.trans hv

/-- Back in AwaitingHead nothing is asked but that `rx_fv = 1` stands over a frame whose CRC matches. -/
theorem of_frameOver {fv : Bool} (hvalid : fv = true → s.rxCrcRx = s.rxCrcCalc ∧ s.rxCrcCalc = rxCrcOf s s.rxLen.toNat) :
    ParserInv { s with rxState := .awaitingHead, rxFv := fv } where
  atCmd := nofun
  atLen := nofun
  atPayload := nofun
  atTrailer := nofun
  valid hfv := ⟨rfl, hvalid hfv⟩

/-! ## RX_FEED -/

variable (d : Byte)

theorem rxFed_gotCmd (h : ParserInv s) (hst : s.rxState = .gotCmd) : ParserInv (rxFed s d) := by
  obtain ⟨hcrc, hidx⟩ := h.atCmd hst
  have hfv := h.rxFv_eq_false (by simp [hst])
  rw [Machine.rxFed_gotCmd hst]
  exact
    { atCmd := nofun
      atLen := fun _ => ⟨by rw [hcrc]; rfl, hidx⟩
      atPayload := nofun
      atTrailer := nofun
      valid := fun hv => nomatch hfv.symm.trans hv }

/-- The byte after the length is a payload byte only where the length is not 0 (R208). -/
theorem rxFed_gotLen (h : ParserInv s) (hst : s.rxState = .gotLen) : ParserInv (rxFed s d) := by
  obtain ⟨hcrc, -⟩ := h.atLen hst
  have hfv := h.rxFv_eq_false (by simp [hst])
  have hcrc' : crc16Step s.rxCrcCalc d = crc16 [s.rxCmd, d] := by rw [hcrc]; rfl
  rw [Machine.rxFed_gotLen hst]
  by_cases hd : d = 0x00#8
  · subst hd
    exact of_trailer (.inl rfl) hfv rfl hcrc'
  · have hpos : 0 < d := by bv_omega
    exact of_collectingPayload (if_neg hd) hfv hpos hcrc'

/-- The index stays below the length until the last payload byte, so adding 1 to it never wraps (R202). -/
theorem rxFed_collectingPayload (h : ParserInv s) (hst : s.rxState = .collectingPayload) : ParserInv (rxFed s d) := by
  obtain ⟨hlt, hcrc⟩ := h.atPayload hst
  have hfv := h.rxFv_eq_false (by simp [hst])
  have hidx : (s.rxIdx + 1).toNat = s.rxIdx.toNat + 1 := by bv_omega
  have hcrc' := (rxCrcOf_rxFed hst d).symm
  rw [← hcrc, ← hidx] at hcrc'
  rw [Machine.rxFed_collectingPayload hst] at hcrc' ⊢
  by_cases hlast : s.rxIdx + 1 = s.rxLen
  · exact of_trailer (.inl (if_pos hlast)) hfv hlast (hlast ▸ hcrc')
  · have hlt' : s.rxIdx + 1 < s.rxLen := by bv_omega
    exact of_collectingPayload (if_neg hlast) hfv hlt' hcrc'

/-- The trailer's CRC bytes are not covered by the running CRC. -/
theorem rxFed_gotCrcLow (h : ParserInv s) (hst : s.rxState = .gotCrcLow) : ParserInv (rxFed s d) := by
  obtain ⟨hidx, hcrc⟩ := h.atTrailer (.inl hst)
  rw [Machine.rxFed_gotCrcLow hst]
  exact of_trailer (.inr (.inl rfl)) (h.rxFv_eq_false (by simp [hst])) hidx hcrc

theorem rxFed_gotCrcHigh (h : ParserInv s) (hst : s.rxState = .gotCrcHigh) : ParserInv (rxFed s d) := by
  obtain ⟨hidx, hcrc⟩ := h.atTrailer (.inr (.inl hst))
  rw [Machine.rxFed_gotCrcHigh hst]
  exact of_trailer (.inr (.inr rfl)) (h.rxFv_eq_false (by simp [hst])) hidx hcrc

/-- The tail marker raises `rx_fv` only where the CRCs match; any other end of a frame leaves it down (R204, R205). -/
theorem rxFed_awaitingTail (h : ParserInv s) (hst : s.rxState = .awaitingTail) : ParserInv (rxFed s d) := by
  obtain ⟨-, hcalc⟩ := h.atTrailer (.inr (.inr hst))
  have hfv : s.rxFv ≠ true := by simp [h.rxFv_eq_false, hst]
  by_cases hd : d = tailMarker
  · subst hd
    by_cases hcrc : s.rxCrcRx = s.rxCrcCalc
    · rw [rxFed_awaitingTail_match hst hcrc]
      exact { of_frameOver (s := s) fun _ => ⟨hcrc, hcalc⟩ with }
    · rw [rxFed_awaitingTail_mismatch hst hcrc]
      exact { of_frameOver (s := s) (absurd · hfv) with }
  · rw [rxFed_awaitingTail_of_ne hst hd]
    exact { of_frameOver (s := s) (absurd · hfv) with }

theorem rxFed (h : ParserInv s) : ParserInv (rxFed s d) := by
  cases hst : s.rxState with
  | awaitingHead =>
    by_cases hd : d = headMarker
    · exact hd ▸ parserInv_rxFed_head hst
    · rw [rxFed_awaitingHead_of_ne hst hd]
      exact { h with }
  | gotCmd => exact h.rxFed_gotCmd d hst
  | gotLen => exact h.rxFed_gotLen d hst
  | collectingPayload => exact h.rxFed_collectingPayload d hst
  | gotCrcLow => exact h.rxFed_gotCrcLow d hst
  | gotCrcHigh => exact h.rxFed_gotCrcHigh d hst
  | awaitingTail => exact h.rxFed_awaitingTail d hst

/-- Every op keeps `ParserInv`: all but two leave the parser alone. -/
theorem exec {i : Instr} (h : ParserInv s) (hx : exec i s = .next t) : ParserInv t := by
  obtain ⟨d, -, rfl⟩ | ⟨-, rfl⟩ | hsame := exec_rx_cases hx
  · exact h.rxFed d
  · exact { of_frameOver (s := s) (fv := false) nofun with }
  · exact h.of_sameUnit hsame

end ParserInv

/-- Settles O25, by the kinds of step: a reset gives the parser its reset values, an op keeps `ParserInv`, and nothing else
touches the parser. -/
theorem stepKeepsTheParserInvariant : Obligations.StepKeepsTheParserInvariant := by
  intro s t h hstep
  rcases step_cases hstep with
    ⟨-, rfl⟩ | ⟨rest, ⟨-, rfl⟩ | ⟨-, rfl⟩ | ⟨a, b, m, -, -, rfl⟩ | ⟨w, cs, m, -, -, ⟨i, -, hx⟩ | ⟨e, -, rfl⟩⟩⟩
  · exact { h with }
  · exact { h with }
  · exact { parserInv_reset with }
  · exact { h with }
  · have hs : ParserInv { s with inputs := rest, event := .none, tbl := m, tblRace := tblChanges s.tbl cs } := { h with }
    exact hs.exec hx
  · exact { h with }

end Sys2Proof.Machine
end

section
/-! A frame built by the encoder's rule and fed to the parser byte by byte (42_frame_parser.md R209): what the parser holds
after the length byte and each payload byte, then the trailer. -/

namespace Sys2Proof.Machine

/-! ## A run of RX_FEEDs -/

/-- The state after RX_FEED of every byte in order. -/
def rxFedAll (s : State) (bytes : List Byte) : State := bytes.foldl rxFed s

theorem rxFedAll_append (s : State) (xs ys : List Byte) : rxFedAll s (xs ++ ys) = rxFedAll (rxFedAll s xs) ys :=
  List.foldl_append

theorem rxFedAll_concat (s : State) (bytes : List Byte) (d : Byte) : rxFedAll s (bytes ++ [d]) = rxFed (rxFedAll s bytes) d :=
  List.foldl_concat ..

theorem execList_rxFeeds : ∀ (bytes : List Byte) (s : State), execList (bytes.map .rxFeed) s = .next (rxFedAll s bytes)
  | [], _ => rfl
  | d :: bytes, s => by
    simp only [List.map_cons, execList, exec_rxFeed_eq_rxFed]
    exact execList_rxFeeds bytes (rxFed s d)

/-- RX_FEED gives an event or keeps the one that stands: it clears none (R452). -/
theorem event_eq_none_of_rxFed {s : State} {d : Byte} (h : (rxFed s d).event = .none) : s.event = .none := by
  cases hst : s.rxState with
  | awaitingHead =>
    by_cases hd : d = headMarker
    · subst hd
      rwa [rxFed_awaitingHead_head hst] at h
    · rwa [rxFed_awaitingHead_of_ne hst hd] at h
  | gotCmd => rwa [rxFed_gotCmd hst] at h
  | gotLen => rwa [rxFed_gotLen hst] at h
  | collectingPayload => rwa [rxFed_collectingPayload hst] at h
  | gotCrcLow => rwa [rxFed_gotCrcLow hst] at h
  | gotCrcHigh => rwa [rxFed_gotCrcHigh hst] at h
  | awaitingTail =>
    by_cases hd : d = tailMarker
    · subst hd
      by_cases hcrc : s.rxCrcRx = s.rxCrcCalc
      · rw [rxFed_awaitingTail_match hst hcrc] at h
        cases h
      · rw [rxFed_awaitingTail_mismatch hst hcrc] at h
        cases h
    · rwa [rxFed_awaitingTail_of_ne hst hd] at h

/-- So no event at the end of a run means no event anywhere in it. -/
theorem event_eq_none_of_rxFedAll : ∀ {bytes : List Byte} {s : State}, (rxFedAll s bytes).event = .none → s.event = .none
  | [], _, h => h
  | _ :: _, _, h => event_eq_none_of_rxFed (event_eq_none_of_rxFedAll h)

/-! ## What the parser holds inside a frame -/

theorem lowByte_zext16 (b : Byte) : lowByte (zext16 b) = b :=
  (BitVec.extractLsb'_setWidth_of_le (by decide)).trans BitVec.extractLsb'_eq_self

theorem highByte_append_lowByte (c : Half) : highByte c ++ lowByte c = c :=
  BitVec.extractLsb'_append_extractLsb' (w := 8) (len := 8)

/-- After the length byte `n` and the payload bytes `got`, with no event so far. -/
structure Receiving (cmd : Byte) (n : Nat) (got : List Byte) (s : State) : Prop where
  inv : ParserInv s
  event : s.event = .none
  cmd : s.rxCmd = cmd
  len : s.rxLen.toNat = n
  idx : s.rxIdx.toNat = got.length
  payload : s.rxBuf.toList.take got.length = got

/-- The field that comes after `k` of `n` payload bytes. -/
def fieldAfterPayload (n k : Nat) : RxState := if k = n then .gotCrcLow else .collectingPayload

section
variable {cmd : Byte} {n : Nat} {s : State}

/-- A head marker, a command and a length open a frame with no payload byte yet, whatever the parser held before. -/
theorem receiving_of_header (hst : s.rxState = .awaitingHead) (hev : s.event = .none) (len : Byte) :
    Receiving cmd len.toNat [] (rxFedAll s [headMarker, cmd, len]) ∧
      (rxFedAll s [headMarker, cmd, len]).rxState = fieldAfterPayload len.toNat 0 := by
  have hinv : ParserInv (rxFedAll s [headMarker, cmd, len]) := ((parserInv_rxFed_head hst).rxFed cmd).rxFed len
  have hfed : rxFedAll s [headMarker, cmd, len] =
      { s with
        rxEvt := .none, rc := .ok, rxFv := false, rxCmd := cmd, rxLen := len, rxIdx := 0,
        rxCrcCalc := crc16Step (crc16Step crcInitValue cmd) len,
        rxState := if len = 0x00#8 then .gotCrcLow else .collectingPayload } := by
    simp only [rxFedAll, List.foldl]
    rw [rxFed_awaitingHead_head hst, rxFed_gotCmd (d := cmd) rfl, rxFed_gotLen (d := len) rfl]
  rw [hfed] at hinv ⊢
  refine ⟨⟨hinv, hev, rfl, rfl, rfl, rfl⟩, if_congr ?_ rfl rfl⟩
  bv_omega

namespace Receiving

variable {got : List Byte}

theorem rxLen_eq (h : Receiving cmd n got s) : s.rxLen = BitVec.ofNat 8 n := by
  rw [← h.len, BitVec.ofNat_toNat, BitVec.setWidth_eq]

/-- A payload byte joins those received. -/
theorem payloadByte (h : Receiving cmd n got s) (hst : s.rxState = .collectingPayload) (hn : got.length < n) (d : Byte) :
    Receiving cmd n (got ++ [d]) (rxFed s d) ∧ (rxFed s d).rxState = fieldAfterPayload n (got.length + 1) := by
  have hinv := h.inv.rxFed d
  have hidx := h.idx
  have hlen := h.len
  have hidx' : (s.rxIdx + 1).toNat = got.length + 1 := by bv_omega
  have hlast : s.rxIdx + 1 = s.rxLen ↔ got.length + 1 = n := by rw [← hidx', ← hlen, BitVec.toNat_inj]
  have hbuf : (s.rxBuf.setIfInBounds s.rxIdx.toNat d).toList.take (got.length + 1) = got ++ [d] := by
    rw [← hidx, take_succ_setIfInBounds _ s.rxIdx.isLt, hidx, h.payload]
  rw [rxFed_collectingPayload hst] at hinv ⊢
  exact ⟨⟨hinv, h.event, h.cmd, hlen, by simpa using hidx', by simpa using hbuf⟩, if_congr hlast rfl rfl⟩

/-- The payload bytes that are still to come, one after another. -/
theorem payloadBytes : ∀ {rest got : List Byte} {s : State}, Receiving cmd n got s →
    s.rxState = fieldAfterPayload n got.length → got.length + rest.length = n →
    Receiving cmd n (got ++ rest) (rxFedAll s rest) ∧ (rxFedAll s rest).rxState = .gotCrcLow
  | [], got, s, h, hst, hn => by
    rw [List.append_nil]
    exact ⟨h, hst.trans (if_pos hn)⟩
  | d :: rest, got, s, h, hst, hn => by
    rw [List.length_cons] at hn
    have hmore : got.length < n := by omega
    obtain ⟨h', hst'⟩ := h.payloadByte (hst.trans (if_neg hmore.ne)) hmore d
    rw [← List.singleton_append, ← List.append_assoc]
    exact payloadBytes h' (by simpa using hst') (by simp; omega)

/-- The two bytes of the CRC, low byte first (R131), leave the payload as it is. -/
theorem crcBytes (h : Receiving cmd n got s) (hst : s.rxState = .gotCrcLow) (crc : Half) :
    Receiving cmd n got (rxFedAll s (le16 crc)) ∧ (rxFedAll s (le16 crc)).rxState = .awaitingTail ∧
      (rxFedAll s (le16 crc)).rxCrcRx = crc := by
  have hinv : ParserInv (rxFedAll s (le16 crc)) := (h.inv.rxFed (lowByte crc)).rxFed (highByte crc)
  have hfed : rxFedAll s (le16 crc) = { s with rxEvt := .none, rc := .ok, rxCrcRx := crc, rxState := .awaitingTail } := by
    simp only [rxFedAll, le16, List.foldl]
    rw [rxFed_gotCrcLow hst, rxFed_gotCrcHigh (d := highByte crc) rfl, lowByte_zext16, highByte_append_lowByte]
  rw [hfed] at hinv ⊢
  exact ⟨{ h with inv := hinv }, rfl, rfl⟩

/-- With the payload complete, the running CRC is that of the frame (R131). -/
theorem rxCrcCalc_eq (h : Receiving cmd got.length got s) (hst : s.rxState = .awaitingTail) :
    s.rxCrcCalc = crc16 (frameBody cmd got) := by
  obtain ⟨-, hcalc⟩ := h.inv.atTrailer (.inr (.inr hst))
  rw [hcalc, rxCrcOf, h.len, h.payload, h.cmd, h.rxLen_eq, frameBody]

end Receiving

/-! ## The whole frame -/

/-- `BuildFrame(cmd, p)` (R240) without its tail marker. -/
def frameUpToTail (cmd : Byte) (p : List Byte) : List Byte :=
  [headMarker, cmd, BitVec.ofNat 8 p.length] ++ p ++ le16 (crc16 (frameBody cmd p))

theorem buildFrame_eq (cmd : Byte) (p : List Byte) : buildFrame cmd p = frameUpToTail cmd p ++ [tailMarker] := by
  simp [buildFrame, frameUpToTail, frameBody]

theorem length_frameUpToTail (cmd : Byte) (p : List Byte) : (frameUpToTail cmd p).length = p.length + 5 := by
  have h := buildFrame_length cmd p
  rw [buildFrame_eq, List.length_append, List.length_singleton] at h
  omega

/-- Before the tail marker the parser holds the whole payload, no event is out, and the CRCs match. -/
theorem receiving_frameUpToTail {p : List Byte} (hp : p.length ≤ 255) (hst : s.rxState = .awaitingHead)
    (hev : s.event = .none) :
    Receiving cmd p.length p (rxFedAll s (frameUpToTail cmd p)) ∧
      (rxFedAll s (frameUpToTail cmd p)).rxState = .awaitingTail ∧
      (rxFedAll s (frameUpToTail cmd p)).rxCrcRx = (rxFedAll s (frameUpToTail cmd p)).rxCrcCalc := by
  have hlen : (BitVec.ofNat 8 p.length).toNat = p.length := Nat.mod_eq_of_lt (by omega)
  obtain ⟨hheader, hstHeader⟩ := receiving_of_header (cmd := cmd) hst hev (BitVec.ofNat 8 p.length)
  rw [hlen] at hheader hstHeader
  obtain ⟨hpayload, hstPayload⟩ := hheader.payloadBytes hstHeader (rest := p) (by simp)
  obtain ⟨hcrc, hstCrc, hrx⟩ := hpayload.crcBytes hstPayload (crc16 (frameBody cmd p))
  rw [List.nil_append] at hcrc
  rw [frameUpToTail, rxFedAll_append, rxFedAll_append]
  exact ⟨hcrc, hstCrc, hrx.trans (hcrc.rxCrcCalc_eq hstCrc).symm⟩

end

/-- Settles O26: the tail marker finds the frame whole with its CRCs matching; with no event before it, there was none after
any earlier byte. -/
theorem frameRoundTrip : Obligations.FrameRoundTrip := by
  intro cmd p s hp hst hev
  obtain ⟨h, hstTail, hcrc⟩ := receiving_frameUpToTail (cmd := cmd) hp hst hev
  constructor
  · have hend := rxFed_awaitingTail_match hstTail hcrc
    refine ⟨_, execList_rxFeeds _ s, ?_⟩
    rw [buildFrame_eq, rxFedAll_concat, hend]
    refine ⟨by rw [h.cmd, h.rxLen_eq], rfl, rfl, rfl, h.cmd, h.len, ?_⟩
    rw [rxPayload, h.len, h.payload]
  · intro k t hk hrun
    rw [execList_rxFeeds] at hrun
    cases hrun
    rw [buildFrame_eq, List.take_append_of_le_length (by rw [length_frameUpToTail]; omega)]
    have hsplit := rxFedAll_append s ((frameUpToTail cmd p).take k) ((frameUpToTail cmd p).drop k)
    rw [List.take_append_drop] at hsplit
    exact event_eq_none_of_rxFedAll (hsplit ▸ h.event)

end Sys2Proof.Machine
end

section
/-! The frame encoder (43_frame_encoder.md): the frame that `Emit` writes is the table of R130 byte by byte, so each transmit
op is settled by the payload it hands over. -/

namespace Sys2Proof.Machine

/-! ## The operands of the transmit ops (R123, R124) -/

theorem aByte_eq_extractLsb' (w : Bundle) : aByte w = w.extractLsb' 16 8 := by
  apply BitVec.eq_of_getLsbD_eq
  intro i hi
  have hword : i < 32 := by omega
  simp [aByte, aField, hi, hword]

theorem decode_eq_txPlWrite {w : Bundle} (hop : opField w = 0x30) :
    decode w = .ok (.txPlWrite (w.extractLsb' 16 8) (w.extractLsb' 8 8)) := by
  rw [decode, hop, ← aByte_eq_extractLsb']
  rfl

theorem decode_eq_txAck {w : Bundle} (hop : opField w = 0x31) :
    decode w = .ok (.txAck (w.extractLsb' 8 8) (w.extractLsb' 16 8)) := by
  rw [decode, hop, ← aByte_eq_extractLsb']
  rfl

theorem decode_eq_txData {w : Bundle} (hop : opField w = 0x32) :
    decode w = .ok (.txData (w.extractLsb' 8 8) (w.extractLsb' 16 8)) := by
  rw [decode, hop, ← aByte_eq_extractLsb']
  rfl

theorem decode_eq_txReport {w : Bundle} (hop : opField w = 0x33) :
    decode w =
      .ok (.txReport (w.extractLsb' 8 8) (w.extractLsb' 16 32) (w.extractLsb' 48 32) (w.extractLsb' 80 32)) := by
  rw [decode, hop]
  rfl

/-! ## The staging buffer -/

theorem execTxPlWrite_eq (idx d : Byte) (s : State) :
    execTxPlWrite idx d s = .next { s with txPl := s.txPl.set idx.toNat d idx.isLt, rc := .ok } := rfl

/-- Of two different indices one keeps its entry, because an index is its number. -/
theorem txPlRdata_of_set {s t : State} {idx d : Byte} (h : t.txPl = s.txPl.set idx.toNat d idx.isLt) (a : Byte) :
    txPlRdata t a = if a = idx then d else txPlRdata s a := by
  simp only [txPlRdata, h, Vector.getElem_set, BitVec.toNat_inj, eq_comm (a := idx)]

/-- Settles O27: the row of the op map, and one entry set at an index that is always in range. -/
theorem txPlWriteStagesOneByte : Obligations.TxPlWriteStagesOneByte :=
  ⟨fun _ => decode_eq_txPlWrite, fun idx d s =>
    ⟨_, (exec_txPlWrite idx d s).trans (execTxPlWrite_eq idx d s), rfl, txPlRdata_of_set rfl⟩⟩

/-! ## The bytes of a frame (R130, R131) -/

section
variable (cmd : Byte) (p : List Byte)

/-- The fields of R130 in three parts: the header, the payload, and the CRC with the tail marker. -/
theorem buildFrame_eq_parts :
    buildFrame cmd p = [headMarker, cmd, BitVec.ofNat 8 p.length] ++
      (p ++ [lowByte (crc16 (frameBody cmd p)), highByte (crc16 (frameBody cmd p)), tailMarker]) := by
  simp [buildFrame, frameBody, le16]

theorem frameByte_payload {k : Nat} (hk : k < p.length) : frameByte cmd p (k + 3) = p.getD k 0 := by
  simp (disch := omega) only [frameByte, if_pos, if_neg, Nat.add_sub_cancel]

theorem frameByte_crcLow : frameByte cmd p (p.length + 3) = lowByte (crc16 (frameBody cmd p)) := by
  simp (disch := omega) only [frameByte, if_pos, if_neg, lowByte, frameBody]

theorem frameByte_crcHigh : frameByte cmd p (p.length + 4) = highByte (crc16 (frameBody cmd p)) := by
  simp (disch := omega) only [frameByte, if_pos, if_neg, highByte, frameBody]

theorem frameByte_tail : frameByte cmd p (p.length + 5) = tailMarker := by
  simp (disch := omega) only [frameByte, if_neg, tailMarker]

variable {p}

/-- `BuildFrame` (R240) is the table of R130: the offset falls in the header, in the payload, or in the last three bytes. -/
theorem buildFrame_getD {j : Nat} (hj : j < p.length + 6) : (buildFrame cmd p).getD j 0 = frameByte cmd p j := by
  rw [buildFrame_eq_parts]
  match j, hj with
  | 0, _ | 1, _ | 2, _ => rfl
  | k + 3, hk =>
    rw [List.getD_append_right _ _ _ _ (Nat.le_add_left 3 k)]
    change (p ++ _).getD k 0 = _
    by_cases hpay : k < p.length
    · rw [List.getD_append _ _ _ _ hpay, frameByte_payload cmd p hpay]
    · obtain ⟨i, rfl⟩ := Nat.exists_eq_add_of_le (not_lt.mp hpay)
      rw [List.getD_append_right _ _ _ _ (not_lt.mp hpay), Nat.add_sub_cancel_left]
      match i, (by omega : i < 3) with
      | 0, _ => exact (frameByte_crcLow cmd p).symm
      | 1, _ => exact (frameByte_crcHigh cmd p).symm
      | 2, _ => exact (frameByte_tail cmd p).symm

end

/-- What `Emit` and then `rc <- OK` do (R240), for every payload that fits a frame. -/
theorem emitted_emitFrame (s : State) (cmd : Byte) {p : List Byte} (hp : p.length ≤ 255) :
    Emitted s ((s.emitFrame cmd p).setRc .ok) cmd p where
  length := by
    rw [setRc_txLen, emitFrame_txLen, buildFrame_length, BitVec.toNat_ofNat]
    exact Nat.mod_eq_of_lt (by omega)
  bytes j h := by
    simp only [setRc_txBuf]
    rw [emitFrame_txBuf_getElem]
    exact ite_congr rfl (buildFrame_getD cmd) fun _ => rfl
  event := by rw [setRc_event, emitFrame_event, buildFrame_length]
  rc := rfl
  rest := rfl

/-! ## The payloads -/

/-- Settles O28: a payload of one byte. -/
theorem txAckEmitsTheAckFrame : Obligations.TxAckEmitsTheAckFrame :=
  ⟨fun _ => decode_eq_txAck, fun cmd status s => ⟨_, exec_txAck cmd status s, emitted_emitFrame s cmd (by simp)⟩⟩

/-- The first `n` bytes, each read at its own index. -/
theorem take_eq_map_getD {bytes : List Byte} {n : Nat} (h : n ≤ bytes.length) :
    bytes.take n = (List.range n).map fun k => bytes.getD k 0 := by
  apply List.ext_getElem
  · simpa using h
  · intro k hk _
    have hin : k < bytes.length := by simp at hk; omega
    simp [hin]

/-- Settles O29: the staging buffer holds as many bytes as any `n` asks for. -/
theorem txDataEmitsTheStagedPayload : Obligations.TxDataEmitsTheStagedPayload := by
  refine ⟨fun _ => decode_eq_txData, fun cmd n s => ⟨_, exec_txData cmd n s, ?_⟩⟩
  have hn : n.toNat ≤ 255 := Nat.le_of_lt_succ n.isLt
  rw [← take_eq_map_getD (by simp; omega)]
  exact emitted_emitFrame s cmd (by simp; omega)

/-- The low `n` bytes of a word, low byte first (R9). -/
def leBytes {w : Nat} (n : Nat) (x : BitVec w) : List Byte := (List.range n).map fun k => x.extractLsb' (8 * k) 8

theorem le32_eq_leBytes (x : B32) : le32 x = leBytes 4 x := rfl

/-- The bytes of a concatenation are those of its low part, then those of its high part. -/
theorem leBytes_append {v w m : Nat} (n : Nat) (hi : BitVec v) (lo : BitVec w) (hw : w = 8 * m) :
    leBytes (m + n) (hi ++ lo) = leBytes m lo ++ leBytes n hi := by
  simp only [leBytes, List.range_add, List.map_append, List.map_map]
  congr 1
  · apply List.map_congr_left
    intro k hk
    have := List.mem_range.mp hk
    exact BitVec.extractLsb'_append_eq_of_add_le (by omega)
  · apply List.map_congr_left
    intro k _
    have hoff : 8 * (m + k) - w = 8 * k := by omega
    rw [Function.comp_apply, BitVec.extractLsb'_append_eq_of_le (by omega), hoff]

/-- The payload of R244 is one word of 96 bits, low byte first. -/
theorem reportPayload_eq_leBytes (temp volt cur : B32) :
    le32 temp ++ le32 volt ++ le32 cur = leBytes 12 (cur ++ volt ++ temp : BitVec 96) := by
  have houter := leBytes_append 8 (cur ++ volt) temp (m := 4) rfl
  have hinner := leBytes_append 4 cur volt (m := 4) rfl
  rw [houter, hinner, ← le32_eq_leBytes, ← le32_eq_leBytes, ← le32_eq_leBytes, List.append_assoc]

/-- Settles O30: the payload is those twelve bytes. -/
theorem txReportEmitsTheThreePatterns : Obligations.TxReportEmitsTheThreePatterns := by
  refine ⟨fun _ => decode_eq_txReport, fun cmd temp volt cur s => ⟨_, exec_txReport cmd temp volt cur s, ?_⟩⟩
  change Emitted s _ cmd (leBytes 12 (cur ++ volt ++ temp : BitVec 96))
  rw [← reportPayload_eq_leBytes]
  exact emitted_emitFrame s cmd (by simp [le32])

end Sys2Proof.Machine
end

section
/-! The median filter (44_median.md). Sorting the window puts the median between two samples that are not above it and two that
are not below it (`median5_splits_window`); so at most two samples stand strictly on either side of it, which is the middle of
R280 and the outlier rejection of R284 (d). -/

namespace Sys2Proof.Machine

/-! ## The operands of the median ops (R123) -/

theorem decode_eq_medPush {w : Bundle} (hop : opField w = 0x40) : decode w = .ok (.medPush (w.extractLsb' 16 32)) := by
  rw [decode, hop]
  rfl

theorem decode_eq_medEval {w : Bundle} (hop : opField w = 0x41) : decode w = .ok .medEval := by
  rw [decode, hop]
  rfl

theorem decode_eq_medClear {w : Bundle} (hop : opField w = 0x42) : decode w = .ok .medClear := by
  rw [decode, hop]
  rfl

/-! ## The ring (R281, R283) -/

theorem execMedPush_eq (x : B32) (s : State) :
    execMedPush x s = .next { s with
      medBuf := s.medBuf.set s.medWr.val x s.medWr.isLt
      medWr := Fin.ofNat 5 (s.medWr.val + 1)
      medCnt := Fin.ofNat 6 (min (s.medCnt.val + 1) 5)
      rc := .ok } := rfl

theorem execMedClear_eq (s : State) :
    execMedClear s = .next { s with medBuf := #v[0, 0, 0, 0, 0], medWr := 0, medCnt := 0, rc := .ok } := rfl

/-- Settles O31: one slot set at `med_wr`, which is always in range, and a count that the saturation keeps in its type. -/
theorem medPushAndClear : Obligations.MedPushAndClear := by
  refine ⟨fun _ => decode_eq_medPush, fun _ => decode_eq_medClear, fun s => ⟨fun x => ?push, ?clear⟩⟩
  case push =>
    refine ⟨_, (exec_medPush x s).trans (execMedPush_eq x s), rfl, rfl, ?count, fun k hk => ?slot⟩
    case count => exact Nat.mod_eq_of_lt (by omega)
    case slot => simp only [Vector.getElem_set, eq_comm (a := k)]
  case clear => exact (exec_medClear s).trans (execMedClear_eq s)

/-! ## The median of a window (R280) -/

theorem sortByKey_perm (l : List B32) : (sortByKey l).Perm l := List.perm_insertionSort _ l

theorem sortByKey_pairwise (l : List B32) : (sortByKey l).Pairwise fun x y => (key x).toNat ≤ (key y).toNat := by
  have htotal : Std.Total fun x y : B32 => (key x).toNat ≤ (key y).toNat := ⟨fun _ _ => Nat.le_total _ _⟩
  have htrans : IsTrans B32 fun x y => (key x).toNat ≤ (key y).toNat := ⟨fun _ _ _ => Nat.le_trans⟩
  exact List.pairwise_insertionSort _ l

/-- Up to order a window is its median, two samples not above it and two not below it. -/
theorem median5_splits_window (w : Vector B32 5) :
    ∃ lo hi : List B32, w.toList.Perm (lo ++ median5 w :: hi) ∧ lo.length = 2 ∧ hi.length = 2 ∧
      (∀ x ∈ lo, (key x).toNat ≤ (key (median5 w)).toNat) ∧ ∀ x ∈ hi, (key (median5 w)).toNat ≤ (key x).toNat := by
  have hlen : (sortByKey w.toList).length = 5 := (sortByKey_perm w.toList).length_eq.trans w.length_toList
  have hsplit : sortByKey w.toList =
      (sortByKey w.toList).take 2 ++ median5 w :: (sortByKey w.toList).drop 3 := by
    have hmid : median5 w = (sortByKey w.toList)[2] := List.getD_eq_getElem _ _ (by omega)
    rw [hmid, ← List.drop_eq_getElem_cons, List.take_append_drop]
  have hsorted := sortByKey_pairwise w.toList
  rw [hsplit, List.pairwise_append, List.pairwise_cons] at hsorted
  obtain ⟨-, ⟨hhi, -⟩, hlo⟩ := hsorted
  refine ⟨_, _, (hsplit ▸ sortByKey_perm w.toList).symm, ?_, ?_, fun x hx => hlo x hx _ List.mem_cons_self, hhi⟩
  · rw [List.length_take, hlen]; rfl
  · rw [List.length_drop, hlen]

/-- R284 (b). -/
theorem median5_mem (w : Vector B32 5) : median5 w ∈ w.toList := by
  obtain ⟨lo, hi, hperm, -⟩ := median5_splits_window w
  exact hperm.mem_iff.mpr (List.mem_append_right lo List.mem_cons_self)

theorem length_filter_below_median5 (w : Vector B32 5) :
    (w.toList.filter fun x => decide ((key x).toNat < (key (median5 w)).toNat)).length ≤ 2 := by
  obtain ⟨lo, hi, hperm, hlen, -, -, hhi⟩ := median5_splits_window w
  have hnone : (median5 w :: hi).filter (fun x => decide ((key x).toNat < (key (median5 w)).toNat)) = [] := by
    simpa using hhi
  rw [(hperm.filter _).length_eq, List.filter_append, hnone, List.append_nil, ← hlen]
  exact List.length_filter_le _ lo

theorem length_filter_above_median5 (w : Vector B32 5) :
    (w.toList.filter fun x => decide ((key (median5 w)).toNat < (key x).toNat)).length ≤ 2 := by
  obtain ⟨lo, hi, hperm, -, hlen, hlo, -⟩ := median5_splits_window w
  have hnone : lo.filter (fun x => decide ((key (median5 w)).toNat < (key x).toNat)) = [] := by
    simpa using hlo
  rw [(hperm.filter _).length_eq, List.filter_append, hnone, List.nil_append,
    List.filter_cons_of_neg (by simp), ← hlen]
  exact List.length_filter_le _ hi

/-! ## MED_EVAL (R282) -/

theorem execMedEval_of_partial {s : State} (h : s.medCnt.val < 5) :
    execMedEval s = .next { s with rc := .medNotFull } :=
  congrArg Host.Outcome.next (if_pos h)

theorem execMedEval_of_full {s : State} (h : s.medCnt.val = 5) :
    execMedEval s = .next { s with medOut := median5 s.medBuf, rc := .ok } :=
  congrArg Host.Outcome.next (if_neg h.not_lt)

/-- Settles O32: on a full ring the sample is the median, with at most two samples on either side of it. -/
theorem medEvalWritesTheMiddleSample : Obligations.MedEvalWritesTheMiddleSample :=
  ⟨fun _ => decode_eq_medEval, fun s =>
    ⟨fun hpartial => (exec_medEval s).trans (execMedEval_of_partial hpartial),
     fun hfull => ⟨median5 s.medBuf, (exec_medEval s).trans (execMedEval_of_full hfull), median5_mem s.medBuf,
      length_filter_below_median5 s.medBuf, length_filter_above_median5 s.medBuf⟩⟩⟩

/-! ## Outlier rejection (R284 (d)) -/

/-- The samples of a window that pass a test, counted by their places. -/
theorem length_filter_eq_card_places (w : Vector B32 5) (p : B32 → Bool) :
    (w.toList.filter p).length = (Finset.univ.filter fun k : Fin 5 => p w[k]).card := by
  have hplaces : (Finset.univ.val.map fun k : Fin 5 => w[k]) = (w.toList : Multiset B32) := by
    rw [Fin.univ_val_map, ← Vector.toList_ofFn]
    exact congrArg (fun v : Vector B32 5 => (v.toList : Multiset B32)) Vector.ofFn_getElem
  have hcount := Multiset.countP_map (fun k : Fin 5 => w[k]) Finset.univ.val (p · = true)
  simp only [hplaces, Multiset.coe_countP, Bool.decide_eq_true, List.countP_eq_length_filter] at hcount
  exact hcount

/-- Two places cannot hold out against three: a test that at most two samples pass fails at a place other than any given two. -/
theorem exists_place_failing {w : Vector B32 5} {p : B32 → Bool} (h : (w.toList.filter p).length ≤ 2) (i j : Fin 5) :
    ∃ k : Fin 5, k ≠ i ∧ k ≠ j ∧ p w[k] = false := by
  rw [length_filter_eq_card_places] at h
  have hexcluded : ((Finset.univ.filter fun k : Fin 5 => p w[k]) ∪ {i, j}).card < (Finset.univ : Finset (Fin 5)).card :=
    calc _ ≤ _ := Finset.card_union_le _ _
      _ ≤ 2 + 2 := Nat.add_le_add h Finset.card_le_two
      _ < 5 := by decide
  obtain ⟨k, -, hk⟩ := Finset.exists_mem_notMem_of_card_lt_card hexcluded
  refine ⟨k, ?_⟩
  simpa [and_comm, and_assoc] using hk

/-- Settles O33: at most two samples are above the median and at most two below it, so among any three places one holds a
sample not above it and one a sample not below it. -/
theorem medianRejectsTwoOutliers : Obligations.MedianRejectsTwoOutliers := fun w i j => by
  obtain ⟨lo, hloi, hloj, hlo⟩ := exists_place_failing (length_filter_above_median5 w) i j
  obtain ⟨hi, hhii, hhij, hhi⟩ := exists_place_failing (length_filter_below_median5 w) i j
  exact ⟨lo, hi, hloi, hloj, hhii, hhij, not_lt.mp (of_decide_eq_false hlo), not_lt.mp (of_decide_eq_false hhi)⟩

end Sys2Proof.Machine
end

section
/-! The mean of a window (45_moving_average.md R302), row by row. It is determined by which entries are present and by the exact
mean, so it ignores their order; of finite values it is one rounding of a rational number that lies between two entries, so it
is finite, nearest and in the range of the window (R306 (c), (d)). -/

namespace Sys2Proof.Machine

/-! ## Finite values and their patterns -/

/-- Values tell patterns apart but for the sign of a zero. -/
theorem eq_of_value_eq {x y : B32} (h : value x = value y) (hx : value x ≠ 0) : x = y := by
  have hsign : signBit x = signBit y :=
    Bool.eq_iff_iff.mpr (by rw [← value_neg_iff_signBit hx, ← value_neg_iff_signBit (h ▸ hx), h])
  refine eq_of_sign_mag hsign ?_
  have hrank := value_eq_iff.mp h
  rw [rank_eq, rank_eq, hsign] at hrank
  split at hrank <;> omega

theorem eq_zero_of_value_eq_zero {x : B32} (h : value x = 0) : x = pZero ∨ x = nZero := by
  rw [eq_pZero_iff, eq_nZero_iff, value_eq_zero_iff.mp h]
  cases signBit x <;> simp

theorem abs_value_le_of_isFinite {x : B32} (h : isFinite x = true) : |value x| ≤ 2 ^ 128 - 2 ^ 104 := by
  have hmag := isFinite_iff.mp h
  have hlo : rankValue (-0x7F7FFFFF) ≤ rankValue (rank x) :=
    rankValue_strictMono.monotone (by rw [rank_eq]; split <;> omega)
  have hhi : rankValue (rank x) ≤ rankValue 0x7F7FFFFF :=
    rankValue_strictMono.monotone (by rw [rank_eq]; split <;> omega)
  rw [rankValue_neg, rankValue_maxFinite] at hlo
  rw [rankValue_maxFinite] at hhi
  rw [value_eq_rankValue]
  exact abs_le.mpr ⟨hlo, hhi⟩

/-- A finite value is below the overflow bound of R15, so rounding finds its own pattern again. -/
theorem round32_value {x : B32} (hfin : isFinite x = true) (hne : value x ≠ 0) : round32 (value x) = x := by
  have hlt : |value x| < 2 ^ 128 - 2 ^ 103 := (abs_value_le_of_isFinite hfin).trans_lt (by norm_num)
  have hdist := (round32_nearest hlt x).1
  rw [sub_self, abs_zero, abs_nonpos_iff, sub_eq_zero] at hdist
  exact (eq_of_value_eq hdist.symm hne).symm

/-! Rounding can reach a pattern on either side of `q`, never pass it (R306 (d)). -/

theorem value_le_of_nearest {q : ℚ} {r y : B32} (h : |value r - q| ≤ |value y - q|) (hy : value y ≤ q) :
    value y ≤ value r := by
  rw [abs_sub_comm (value y), abs_of_nonneg (sub_nonneg.mpr hy)] at h
  linarith [neg_le_abs (value r - q)]

theorem le_value_of_nearest {q : ℚ} {r y : B32} (h : |value r - q| ≤ |value y - q|) (hy : q ≤ value y) :
    value r ≤ value y := by
  rw [abs_of_nonneg (sub_nonneg.mpr hy)] at h
  linarith [le_abs_self (value r - q)]

/-- What rounds to a zero keeps its sign (R302). -/
theorem round32_of_value_eq_zero {q : ℚ} (hq : |q| < 2 ^ 128 - 2 ^ 103) (h : value (round32 q) = 0) :
    round32 q = if q < 0 then nZero else pZero := by
  have hmag := nearestMag_lt_of_abs_lt hq
  rw [value_eq_zero_iff, round32_eq_withSign hq, magBits_withSign _ (by omega)] at h
  rw [round32_eq_withSign hq, h, withSign_zero]
  simp only [decide_eq_true_eq]

/-! ## The exact mean -/

section
variable {w : List B32}

theorem exactMean_mul_length (hne : w ≠ []) : w.length * exactMean w = (w.map value).sum :=
  mul_div_cancel₀ _ (Nat.cast_ne_zero.mpr (List.length_pos_iff.mpr hne).ne')

theorem exactMean_eq_zero_iff (hne : w ≠ []) : exactMean w = 0 ↔ (w.map value).sum = 0 := by
  rw [← exactMean_mul_length hne, mul_eq_zero, Nat.cast_eq_zero, List.length_eq_zero_iff, or_iff_right hne]

theorem exactMean_replicate {n : Nat} (hn : n ≠ 0) (v : B32) : exactMean (List.replicate n v) = value v := by
  rw [exactMean, List.map_replicate, List.sum_replicate, List.length_replicate, nsmul_eq_mul,
    mul_div_cancel_left₀ _ (Nat.cast_ne_zero.mpr hn)]

theorem sum_map_exactMean (hne : w ≠ []) : (w.map fun _ => exactMean w).sum = (w.map value).sum := by
  rw [List.map_const', List.sum_replicate, nsmul_eq_mul, exactMean_mul_length hne]

/-- Not every entry is above the mean of all, and not every one below. -/
theorem exactMean_between (hne : w ≠ []) : ∃ lo ∈ w, ∃ hi ∈ w, value lo ≤ exactMean w ∧ exactMean w ≤ value hi := by
  obtain ⟨lo, hlo, hle⟩ := List.exists_le_of_sum_le hne value (fun _ => exactMean w) (sum_map_exactMean hne).ge
  obtain ⟨hi, hhi, hge⟩ := List.exists_le_of_sum_le hne (fun _ => exactMean w) value (sum_map_exactMean hne).le
  exact ⟨lo, hlo, hi, hhi, hle, hge⟩

/-- The mean of finite values does not overflow, however many there are (R302). -/
theorem abs_exactMean_lt (hne : w ≠ []) (hfin : ∀ x ∈ w, isFinite x = true) : |exactMean w| < 2 ^ 128 - 2 ^ 103 := by
  obtain ⟨lo, hlo, hi, hhi, hle, hge⟩ := exactMean_between hne
  obtain ⟨hlo', -⟩ := abs_le.mp (abs_value_le_of_isFinite (hfin lo hlo))
  obtain ⟨-, hhi'⟩ := abs_le.mp (abs_value_le_of_isFinite (hfin hi hhi))
  exact (abs_le.mpr ⟨hlo'.trans hle, hge.trans hhi'⟩).trans_lt (by norm_num)

/-! ## The rows of R302 -/

theorem mean_of_isNaN (h : ∃ x ∈ w, isNaN x = true) : mean w = cNaN :=
  if_pos (List.any_eq_true.mpr h)

/-- Without a NaN the infinities decide, then the exact mean. -/
theorem mean_of_no_nan (h : ∀ x ∈ w, isNaN x = false) : mean w =
    if pInf ∈ w then if nInf ∈ w then cNaN else pInf
    else if nInf ∈ w then nInf
    else if exactMean w = 0 then if w = List.replicate w.length nZero then nZero else pZero
    else round32 (exactMean w) := by
  have hnan : w.any isNaN = false := List.any_eq_false.mpr fun x hx => Bool.eq_false_iff.mp (h x hx)
  have hzeros : (w.all (· == nZero)) = true ↔ w = List.replicate w.length nZero := by
    simp [List.eq_replicate_iff]
  rw [mean, hnan, if_neg Bool.false_ne_true]
  simp only [Bool.and_eq_true, List.contains_iff_mem, hzeros]
  by_cases hp : pInf ∈ w
  · simp only [hp, true_and, if_true]
  · simp only [hp, false_and, if_false]

theorem mean_of_isFinite (h : ∀ x ∈ w, isFinite x = true) : mean w =
    if exactMean w = 0 then if w = List.replicate w.length nZero then nZero else pZero else round32 (exactMean w) := by
  have hp : pInf ∉ w := fun hmem => absurd (h _ hmem) (by decide)
  have hn : nInf ∉ w := fun hmem => absurd (h _ hmem) (by decide)
  rw [mean_of_no_nan fun x hx => isNaN_of_isFinite (h x hx), if_neg hp, if_neg hn]

theorem mean_of_isFinite_of_ne_zero (h : ∀ x ∈ w, isFinite x = true) (hq : exactMean w ≠ 0) :
    mean w = round32 (exactMean w) := by
  rw [mean_of_isFinite h, if_neg hq]

theorem mean_of_exactMean_eq_zero (h : ∀ x ∈ w, isFinite x = true) (hq : exactMean w = 0) :
    mean w = nZero ∨ mean w = pZero := by
  rw [mean_of_isFinite h, if_pos hq]
  exact ite_eq_or_eq _ _ _

/-- Settles O36: the rows of R302 with their conditions met or failed. -/
theorem meanOfSpecialValues : Obligations.MeanOfSpecialValues := fun w hne => by
  refine ⟨mean_of_isNaN, ?bothInf, ?onlyPInf, ?onlyNInf, ?zeroSum⟩
  case bothInf => exact fun h hp hn => (mean_of_no_nan h).trans ((if_pos hp).trans (if_pos hn))
  case onlyPInf => exact fun h hp hn => (mean_of_no_nan h).trans ((if_pos hp).trans (if_neg hn))
  case onlyNInf => exact fun h hp hn => (mean_of_no_nan h).trans ((if_neg hp).trans (if_pos hn))
  case zeroSum => exact fun h hsum => (mean_of_isFinite h).trans (if_pos ((exactMean_eq_zero_iff hne).mpr hsum))

/-! ## Finite windows (R302, R15) -/

/-- The mean of finite values is one rounding to nearest of the exact mean, ties to even. -/
theorem mean_nearest (hne : w ≠ []) (hfin : ∀ x ∈ w, isFinite x = true) :
    isFinite (mean w) = true ∧ ∀ y : B32,
      |value (mean w) - exactMean w| ≤ |value y - exactMean w| ∧
      (|value (mean w) - exactMean w| = |value y - exactMean w| → value y ≠ value (mean w) →
        (mean w).getLsbD 0 = false) := by
  by_cases hq : exactMean w = 0
  · have hvalue : isFinite (mean w) = true ∧ value (mean w) = 0 ∧ (mean w).getLsbD 0 = false := by
      rcases mean_of_exactMean_eq_zero hfin hq with h | h <;> rw [h] <;>
        exact ⟨rfl, value_eq_zero_iff.mpr rfl, rfl⟩
    obtain ⟨hfinite, hzero, heven⟩ := hvalue
    refine ⟨hfinite, fun y => ⟨?_, fun _ _ => heven⟩⟩
    rw [hzero, hq, sub_self, abs_zero]
    exact abs_nonneg _
  · have hlt := abs_exactMean_lt hne hfin
    rw [mean_of_isFinite_of_ne_zero hfin hq]
    exact ⟨isFinite_round32 hlt, round32_nearest hlt⟩

/-- A mean that rounds to a zero is the zero of the exact mean's sign. -/
theorem mean_of_value_eq_zero (hne : w ≠ []) (hfin : ∀ x ∈ w, isFinite x = true) (hq : exactMean w ≠ 0)
    (h : value (mean w) = 0) : mean w = if exactMean w < 0 then nZero else pZero := by
  rw [mean_of_isFinite_of_ne_zero hfin hq] at h ⊢
  exact round32_of_value_eq_zero (abs_exactMean_lt hne hfin) h

/-- Settles O37: the quotient of the statement is `exactMean`. -/
theorem meanIsNearestToTheExactMean : Obligations.MeanIsNearestToTheExactMean := by
  rintro w q hne hfin (rfl : q = exactMean w)
  obtain ⟨hfinite, hnearest⟩ := mean_nearest hne hfin
  refine ⟨hfinite, fun y _ => hnearest y, fun hpos hzero => ?pos, fun hneg hzero => ?neg⟩
  case pos => exact (mean_of_value_eq_zero hne hfin hpos.ne' hzero).trans (if_neg hpos.not_gt)
  case neg => exact (mean_of_value_eq_zero hne hfin hneg.ne hzero).trans (if_pos hneg)

/-- Settles O39: a nearest pattern is not passed by the entries on either side of the exact mean. -/
theorem meanLiesWithinTheWindow : Obligations.MeanLiesWithinTheWindow := fun w hne hfin => by
  obtain ⟨hfinite, hnearest⟩ := mean_nearest hne hfin
  obtain ⟨lo, hlo, hi, hhi, hle, hge⟩ := exactMean_between hne
  obtain ⟨-, -, -, hfle_lo, -⟩ := comparisons_of_isFinite (hfin lo hlo) hfinite
  obtain ⟨-, -, -, hfle_hi, -⟩ := comparisons_of_isFinite hfinite (hfin hi hhi)
  exact ⟨lo, hlo, hi, hhi, hfle_lo.mpr (value_le_of_nearest (hnearest lo).1 hle),
    hfle_hi.mpr (le_value_of_nearest (hnearest hi).1 hge)⟩

/-! ## Order and repetition (R306) -/

theorem exactMean_perm {v : List B32} (h : v.Perm w) : exactMean v = exactMean w := by
  rw [exactMean, exactMean, (h.map value).sum_eq, h.length_eq]

/-- Settles O38: every test of R302 asks which entries are present, and a sum ignores the order of its terms. -/
theorem meanIgnoresTheOrderOfTheWindow : Obligations.MeanIgnoresTheOrderOfTheWindow := fun v w h => by
  rw [mean, mean, h.any_eq, h.contains_eq, h.contains_eq, h.all_eq, exactMean_perm h]

/-- The mean of copies of one value is that value bit for bit (R306 (a)). -/
theorem mean_replicate {v : B32} {n : Nat} (hn : n ≠ 0) (hv : isNaN v = false) : mean (List.replicate n v) = v := by
  have hmem : ∀ x, x ∈ List.replicate n v ↔ x = v := fun x => by rw [List.mem_replicate, and_iff_right hn]
  by_cases hinf : isInf v = true
  · rw [mean_of_no_nan fun x hx => (hmem x).mp hx ▸ hv]
    rcases isInf_iff_eq.mp hinf with rfl | rfl
    · rw [if_pos ((hmem _).mpr rfl), if_neg (mt (hmem _).mp (by decide))]
    · rw [if_neg (mt (hmem _).mp (by decide)), if_pos ((hmem _).mpr rfl)]
  · have hfin : isFinite v = true := by
      rw [isInf_iff] at hinf
      exact isFinite_iff.mpr (lt_of_le_of_ne (isNaN_eq_false_iff.mp hv) hinf)
    rw [mean_of_isFinite fun x hx => (hmem x).mp hx ▸ hfin, exactMean_replicate hn, List.length_replicate]
    by_cases hz : value v = 0
    · rw [if_pos hz]
      rcases eq_zero_of_value_eq_zero hz with rfl | rfl
      · exact if_neg (mt (List.replicate_right_inj hn).mp (by decide))
      · exact if_pos rfl
    · rw [if_neg hz, round32_value hfin hz]

end

end Sys2Proof.Machine
end

section
/-! The moving-average ops (45_moving_average.md R303 to R305), and what a run of pushes of one value leaves in the window
(R306 (a), (b)): the slots written are those from `maf_wr` on, so once they cover the valid entries the window holds copies of
that value only. -/

namespace Sys2Proof.Machine

/-! ## The operands of the moving-average ops (R123) -/

theorem decode_eq_mafPush {w : Bundle} (hop : opField w = 0x50) : decode w = .ok (.mafPush (w.extractLsb' 16 32)) := by
  rw [decode, hop]
  rfl

theorem decode_eq_mafClear {w : Bundle} (hop : opField w = 0x51) : decode w = .ok .mafClear := by
  rw [decode, hop]
  rfl

theorem decode_eq_medMaf {w : Bundle} (hop : opField w = 0x52) : decode w = .ok .medMaf := by
  rw [decode, hop]
  rfl

/-! ## MAF_PUSH and MAF_CLEAR (R303, R304) -/

/-- The state after MAF_PUSH `x`, which no pattern and no state refuses. -/
def mafPushed (x : B32) (s : State) : State := (s.pushMean x).setRc .ok

theorem exec_mafPush_eq_mafPushed (x : B32) (s : State) : exec (.mafPush x) s = .next (mafPushed x s) := rfl

theorem mafPushed_eq (x : B32) (s : State) :
    mafPushed x s = { s with
      mafWin := (mafPushed x s).mafWin, mafWr := (mafPushed x s).mafWr, mafCnt := (mafPushed x s).mafCnt,
      mafOut := (mafPushed x s).mafOut, rc := .ok } := rfl

section
variable (x : B32) (s : State)

theorem mafPushed_mafWin_getElem (k : Nat) (h : k < 16) :
    (mafPushed x s).mafWin[k] = if k = s.mafWr.val then x else s.mafWin[k] := by
  have hwin : (mafPushed x s).mafWin = s.mafWin.set s.mafWr.val x s.mafWr.isLt := rfl
  simp only [hwin, Vector.getElem_set, eq_comm (a := k)]

theorem mafPushed_mafWr : (mafPushed x s).mafWr.val = (s.mafWr.val + 1) % 16 := rfl

/-- The count saturates at the size of the window, which its type holds. -/
theorem mafPushed_mafCnt : (mafPushed x s).mafCnt.val = min (s.mafCnt.val + 1) 16 := Nat.mod_eq_of_lt (by omega)

theorem mafPushed_mafOut : (mafPushed x s).mafOut = mean (mafEntries (mafPushed x s).mafWin (mafPushed x s).mafCnt) := rfl

end

theorem execMafClear_eq (s : State) :
    execMafClear s = .next { s with
      mafWin := Vector.replicate 16 pZero, mafWr := 0, mafCnt := 0, mafOut := pZero, rc := .ok } := rfl

/-- Settles O34: one slot set at `maf_wr`, and the mean of the valid entries that this leaves. -/
theorem mafPushAndClear : Obligations.MafPushAndClear :=
  ⟨fun _ => decode_eq_mafPush, fun _ => decode_eq_mafClear, fun s =>
    ⟨fun x => ⟨mafPushed x s, exec_mafPush_eq_mafPushed x s, mafPushed_eq x s, mafPushed_mafWr x s, mafPushed_mafCnt x s,
      mafPushed_mafWin_getElem x s, mafPushed_mafOut x s⟩,
     (exec_mafClear s).trans (execMafClear_eq s)⟩⟩

/-! ## MED_MAF (R305) -/

theorem execMedMaf_of_partial {s : State} (h : s.medCnt.val < 5) : execMedMaf s = .next { s with rc := .medNotFull } :=
  congrArg Host.Outcome.next (if_pos h)

theorem execMedMaf_of_full {s : State} (h : s.medCnt.val = 5) :
    execMedMaf s = .next (mafPushed (median5 s.medBuf) { s with medOut := median5 s.medBuf }) :=
  congrArg Host.Outcome.next (if_neg h.not_lt)

/-- The push writes `rc` itself and does not read it. -/
theorem mafPushed_setRc (x : B32) (s : State) (code : ResultCode) : mafPushed x (s.setRc code) = mafPushed x s := rfl

/-- Settles O35: the result code of MED_EVAL in between is lost in that of the push. -/
theorem medMafIsMedEvalThenMafPush : Obligations.MedMafIsMedEvalThenMafPush :=
  ⟨fun _ => decode_eq_medMaf, fun s =>
    ⟨fun hpartial => (exec_medMaf s).trans (execMedMaf_of_partial hpartial),
     fun hfull => ⟨({ s with medOut := median5 s.medBuf } : State).setRc .ok, _,
      (exec_medEval s).trans (execMedEval_of_full hfull), exec_mafPush_eq_mafPushed _ _,
      (exec_medMaf s).trans ((execMedMaf_of_full hfull).trans (congrArg _ (mafPushed_setRc _ _ .ok).symm))⟩⟩⟩

/-! ## A run of pushes of one value (R306) -/

/-- The state after `k` pushes of `v`. -/
def mafPushedTimes (v : B32) (k : Nat) (s : State) : State := (mafPushed v)^[k] s

theorem execList_mafPushes (v : B32) : ∀ (k : Nat) (s : State),
    execList (List.replicate k (.mafPush v)) s = .next (mafPushedTimes v k s)
  | 0, _ => rfl
  | k + 1, s => by
    simp only [List.replicate_succ, execList, exec_mafPush_eq_mafPushed]
    exact execList_mafPushes v k (mafPushed v s)

section
variable (v : B32) (k : Nat) (s : State)

theorem mafPushedTimes_succ : mafPushedTimes v (k + 1) s = mafPushed v (mafPushedTimes v k s) :=
  Function.iterate_succ_apply' _ _ _

theorem mafPushedTimes_mafWr : (mafPushedTimes v k s).mafWr.val = (s.mafWr.val + k) % 16 := by
  induction k with
  | zero => exact (Nat.mod_eq_of_lt s.mafWr.isLt).symm
  | succ k ih =>
    rw [mafPushedTimes_succ, mafPushed_mafWr, ih]
    omega

theorem mafPushedTimes_mafCnt : (mafPushedTimes v k s).mafCnt.val = min (s.mafCnt.val + k) 16 := by
  induction k with
  | zero => exact (min_eq_left (Nat.le_of_lt_succ s.mafCnt.isLt)).symm
  | succ k ih =>
    rw [mafPushedTimes_succ, mafPushed_mafCnt, ih]
    omega

end

/-- Push number `j` of `k` writes the slot `j` places after `maf_wr`, and no push after it writes another value there. -/
theorem mafPushedTimes_mafWin_getElem {v : B32} {k j i : Nat} {s : State} (hi : i < 16) (hj : j < k)
    (hslot : i = (s.mafWr.val + j) % 16) : (mafPushedTimes v k s).mafWin[i] = v := by
  induction k with
  | zero => exact absurd hj j.not_lt_zero
  | succ k ih =>
    simp only [mafPushedTimes_succ, mafPushed_mafWin_getElem, mafPushedTimes_mafWr]
    split
    · rfl
    · next hother => exact ih (by omega)

theorem mafEntries_eq_replicate {win : Vector B32 16} {cnt : Fin 17} {v : B32}
    (h : ∀ (i : Nat) (hi : i < 16), i < cnt.val → win[i] = v) : mafEntries win cnt = List.replicate cnt.val v := by
  refine List.eq_replicate_iff.mpr ⟨?length, fun x hx => ?entry⟩
  case length =>
    rw [mafEntries, List.length_take, Vector.length_toList]
    omega
  case entry =>
    obtain ⟨i, hi, rfl⟩ := List.mem_iff_getElem.mp hx
    rw [mafEntries, List.length_take, Vector.length_toList] at hi
    simpa [mafEntries] using h i (by omega) (by omega)

/-- After pushes that cover the valid entries, the mean is of copies of the value pushed. -/
theorem mafPushedTimes_mafOut {v : B32} {k : Nat} {s : State} (hk : 1 ≤ k)
    (hcover : ∀ i < min (s.mafCnt.val + k) 16, ∃ j < k, i = (s.mafWr.val + j) % 16) :
    (mafPushedTimes v k s).mafOut = mean (List.replicate (min (s.mafCnt.val + k) 16) v) := by
  have hout : (mafPushedTimes v k s).mafOut =
      mean (mafEntries (mafPushedTimes v k s).mafWin (mafPushedTimes v k s).mafCnt) := by
    obtain ⟨k, rfl⟩ := Nat.exists_eq_add_of_le' hk
    rw [mafPushedTimes_succ, mafPushed_mafOut]
  rw [hout, mafEntries_eq_replicate, mafPushedTimes_mafCnt]
  intro i hi hcnt
  rw [mafPushedTimes_mafCnt] at hcnt
  obtain ⟨j, hj, hslot⟩ := hcover i hcnt
  exact mafPushedTimes_mafWin_getElem hi hj hslot

/-- In an empty window the first slot written is slot 0 (R50 (b)), so the pushes are all that is valid. -/
theorem mafPushedTimes_mafOut_of_empty {v : B32} {k : Nat} {s : State} (hk : 1 ≤ k) (hs : StateInv s)
    (hempty : s.mafCnt = 0) : (mafPushedTimes v k s).mafOut = mean (List.replicate (min k 16) v) := by
  have hcnt : s.mafCnt.val = 0 := congrArg Fin.val hempty
  have hwr : s.mafWr.val = 0 := (hs.mafFill (by omega)).trans hcnt
  rw [mafPushedTimes_mafOut hk fun i hi => ⟨i, by omega, by omega⟩, hcnt, Nat.zero_add]

/-- Sixteen pushes write every slot, wherever the first one was. -/
theorem mafPushedTimes_mafOut_of_sixteen {v : B32} {k : Nat} {s : State} (hk : 16 ≤ k) :
    (mafPushedTimes v k s).mafOut = mean (List.replicate (min (s.mafCnt.val + k) 16) v) :=
  mafPushedTimes_mafOut (by omega) fun i hi => ⟨(i + 16 - s.mafWr.val) % 16, by omega, by omega⟩

/-- Settles O40: in each case the mean is that of copies of the value pushed. -/
theorem constantPushesConvergeExactly : Obligations.ConstantPushesConvergeExactly := by
  refine ⟨fun v k s hv hs hempty hk => ?empty, fun v k s hv hk => ?anyState, fun v s hv hs hempty => ?nan⟩
  case empty =>
    exact ⟨_, execList_mafPushes v k s,
      (mafPushedTimes_mafOut_of_empty hk hs hempty).trans (mean_replicate (by omega) hv)⟩
  case anyState =>
    exact ⟨_, execList_mafPushes v k s, (mafPushedTimes_mafOut_of_sixteen hk).trans (mean_replicate (by omega) hv)⟩
  case nan =>
    exact ⟨_, exec_mafPush_eq_mafPushed v s,
      (mafPushedTimes_mafOut_of_empty (k := 1) le_rfl hs hempty).trans (mean_of_isNaN ⟨v, List.mem_singleton_self v, hv⟩)⟩

end Sys2Proof.Machine
end

section
/-! The table lookup (46_lookup.md): what the LUT ops read when the parameters meet R6, the outcomes of LUT_VERIFY and
LUT_LOOKUP, and why the search of R333 keeps its window around the query (R334). -/

namespace Sys2Proof.Machine

/-! ## The operands of the LUT ops (R123) -/

theorem decode_eq_lutVerify {w : Bundle} (hop : opField w = 0x60) : decode w = .ok .lutVerify := by
  rw [decode, hop]
  rfl

theorem decode_eq_lutLookup {w : Bundle} (hop : opField w = 0x61) : decode w = .ok (.lutLookup (w.extractLsb' 16 32)) := by
  rw [decode, hop]
  rfl

/-! ## The table as the LUT ops read it (R330, R331, R87) -/

section
variable {p : Params} {m : Memory} (hp : p.wf = true)
include hp

/-- R6: the table memory holds the header and `TABLE_MAX_POINTS` points. -/
theorem tableSize_le_tblBytes : 8 + 8 * p.tableMaxPoints.toNat ≤ p.tblBytes := by
  simp only [Params.wf, Bool.and_eq_true, decide_eq_true_eq] at hp
  obtain ⟨⟨-, hsize⟩, -⟩ := hp
  exact hsize

theorem tblCount_eq : tblCount p m = some (headerCount m) :=
  memRead_two m hp (by have := tableSize_le_tblBytes hp; omega)

/-- The check of R330 answers whether the header is valid. -/
theorem tblVerify_eq_some {ok : Bool} (hok : ok = true ↔ headerValid p m) : tblVerify p m = some ok := by
  have hmagic : memRead p m 0 4 = some (tblWord m 0) :=
    memRead_four m hp (by have := tableSize_le_tblBytes hp; omega)
  rw [tblVerify, hmagic, tblCount_eq hp]
  refine congrArg some (Bool.eq_iff_iff.mpr ?_)
  rw [hok, headerValid]
  simp only [Bool.and_eq_true, decide_eq_true_eq, beq_iff_eq, and_comm]

theorem tblVerify_of_headerValid (hh : headerValid p m) : tblVerify p m = some true :=
  tblVerify_eq_some hp (iff_of_true rfl hh)

theorem tblVerify_of_not_headerValid (hh : ¬ headerValid p m) : tblVerify p m = some false :=
  tblVerify_eq_some hp (iff_of_false Bool.false_ne_true hh)

theorem lookup_eq_lookupIn (v : B32) : lookup p m v = lookupIn p m v (headerCount m) := by
  rw [lookup, tblCount_eq hp]

variable (hh : headerValid p m)
include hh

omit hp in
theorem headerCount_pos : 0 < headerCount m := by
  obtain ⟨-, hpos, -⟩ := hh
  exact hpos

/-- Every byte of every point that the header counts lies in the table memory. -/
theorem pointEnd_le_tblBytes {i : Nat} (hi : i < headerCount m) : 16 + 8 * i ≤ p.tblBytes := by
  obtain ⟨-, -, hmax⟩ := hh
  have hsize := tableSize_le_tblBytes hp
  omega

theorem pointVolt_eq {i : Nat} (hi : i < headerCount m) : pointVolt p m i = some (voltAt m i) := by
  have hend := pointEnd_le_tblBytes hp hh hi
  rw [pointVolt, memRead_four m hp (by omega)]
  rfl

theorem pointTemp_eq {i : Nat} (hi : i < headerCount m) : pointTemp p m i = some (tempAt m i) := by
  have hend := pointEnd_le_tblBytes hp hh hi
  rw [pointTemp, memRead_four m hp (by omega)]
  rfl

/-! ## `Lookup(v)` (R333) on a valid header -/

theorem lookup_of_ge_first {v : B32} (hfirst : fge v (voltAt m 0) = true) : lookup p m v = some (tempAt m 0) := by
  have hpos := headerCount_pos hh
  simp only [lookup_eq_lookupIn hp, lookupIn, pointVolt_eq hp hh hpos, hfirst, if_true, pointTemp_eq hp hh hpos]

theorem lookup_of_le_last {v : B32} (hfirst : fge v (voltAt m 0) = false)
    (hlast : fle v (voltAt m (headerCount m - 1)) = true) : lookup p m v = some (tempAt m (headerCount m - 1)) := by
  have hpos := headerCount_pos hh
  have hend : headerCount m - 1 < headerCount m := by omega
  simp only [lookup_eq_lookupIn hp, lookupIn, pointVolt_eq hp hh hpos, pointVolt_eq hp hh hend, hfirst, hlast, if_true,
    Bool.false_eq_true, if_false, pointTemp_eq hp hh hend]

/-- One point leaves no pair to interpolate over: only a NaN, as its voltage or as the query, gets past both clamps. -/
theorem lookup_of_one_point {v : B32} (hone : headerCount m = 1) (hfirst : fge v (voltAt m 0) = false)
    (hlast : fle v (voltAt m 0) = false) : lookup p m v = some cNaN := by
  have hpos := headerCount_pos hh
  rw [lookup_eq_lookupIn hp, lookupIn, pointVolt_eq hp hh hpos]
  simp only [hone, Nat.sub_self, pointVolt_eq hp hh hpos, hfirst, hlast, Bool.false_eq_true, if_false, if_true]

/-- The turns of the model's search are enough to end at an adjacent pair, and it takes the turns of R333. -/
theorem searchPair_eq {v : B32} : ∀ {turns lo hi : Nat}, lo < hi → hi ≤ lo + turns → hi < headerCount m →
    ∃ a, a + 1 ≤ hi ∧ SearchEndsAt m v lo hi a (a + 1) ∧ searchPair p m v turns lo hi = some (a, a + 1)
  | 0, lo, hi, hlt, hturns, _ => by omega
  | turns + 1, lo, hi, hlt, hturns, hhi => by
    by_cases hgap : lo + 1 < hi
    · have hmid : pointVolt p m ((lo + hi) / 2) = some (voltAt m ((lo + hi) / 2)) := pointVolt_eq hp hh (by omega)
      simp only [searchPair, if_pos (show 1 < hi - lo by omega), hmid]
      cases hv : fgt (voltAt m ((lo + hi) / 2)) v
      case true =>
        obtain ⟨a, hle, hends, hpair⟩ := searchPair_eq (v := v) (turns := turns) (lo := (lo + hi) / 2) (hi := hi)
          (by omega) (by omega) hhi
        exact ⟨a, hle, .raiseLo hgap hv hends, hpair⟩
      case false =>
        obtain ⟨a, hle, hends, hpair⟩ := searchPair_eq (v := v) (turns := turns) (lo := lo) (hi := (lo + hi) / 2)
          (by omega) (by omega) (by omega)
        exact ⟨a, by omega, .lowerHi hgap hv hends, hpair⟩
    · obtain rfl : hi = lo + 1 := by omega
      exact ⟨lo, le_rfl, .done le_rfl, by rw [searchPair, if_neg (by omega)]⟩

theorem interpolateAt_eq {a : Nat} (v : B32) (ha : a + 1 < headerCount m) : interpolateAt p m v a (a + 1) =
    some (interpolate v (voltAt m a) (voltAt m (a + 1)) (tempAt m a) (tempAt m (a + 1))) := by
  have ha' : a < headerCount m := by omega
  simp only [interpolateAt, pointVolt_eq hp hh ha', pointVolt_eq hp hh ha, pointTemp_eq hp hh ha', pointTemp_eq hp hh ha]

theorem lookup_of_unclamped {v : B32} (htwo : 2 ≤ headerCount m) (hfirst : fge v (voltAt m 0) = false)
    (hlast : fle v (voltAt m (headerCount m - 1)) = false) :
    ∃ a, a + 1 < headerCount m ∧ SearchEndsAt m v 0 (headerCount m - 1) a (a + 1) ∧
      lookup p m v = some (interpolate v (voltAt m a) (voltAt m (a + 1)) (tempAt m a) (tempAt m (a + 1))) := by
  have hpos : 0 < headerCount m := by omega
  have hend : headerCount m - 1 < headerCount m := by omega
  obtain ⟨a, hle, hends, hpair⟩ := searchPair_eq hp hh (v := v) (turns := headerCount m - 1) (lo := 0)
    (hi := headerCount m - 1) (by omega) (by omega) hend
  have ha : a + 1 < headerCount m := by omega
  refine ⟨a, ha, hends, ?_⟩
  simp only [lookup_eq_lookupIn hp, lookupIn, pointVolt_eq hp hh hpos, pointVolt_eq hp hh hend, hfirst, hlast,
    Bool.false_eq_true, if_false, if_neg (show headerCount m ≠ 1 by omega), hpair, interpolateAt_eq hp hh v ha]

omit hp hh in
/-- A NaN query passes through the difference, the product, the quotient and the sum (R12). -/
theorem interpolate_of_isNaN {v : B32} (hv : isNaN v = true) (vLo vHi tLo tHi : B32) :
    interpolate v vLo vHi tLo tHi = cNaN := by
  have hnan : isNaN cNaN = true := rfl
  rw [interpolate, fsub_of_isNaN (.inl hv), fmul_of_isNaN (.inl hnan), fdiv_of_isNaN (.inl hnan), fadd_of_isNaN (.inr hnan)]

/-- R334 (c): no clamp takes a NaN query, and both ways on from there give the canonical NaN. -/
theorem lookup_of_isNaN {v : B32} (hv : isNaN v = true) : lookup p m v = some cNaN := by
  have hunclamped : ∀ x, fge v x = false ∧ fle v x = false := fun x =>
    have ⟨_, _, hge, hle, _⟩ := comparisons_of_isNaN (y := x) (.inl hv)
    ⟨hge, hle⟩
  obtain hone | htwo : headerCount m = 1 ∨ 2 ≤ headerCount m := by have hpos := headerCount_pos hh; omega
  · exact lookup_of_one_point hp hh hone (hunclamped _).1 (hunclamped _).2
  · obtain ⟨a, -, -, hlookup⟩ := lookup_of_unclamped hp hh htwo (hunclamped _).1 (hunclamped _).2
    rw [hlookup, interpolate_of_isNaN hv]

end

/-! ## The bracket (R334 (b)) -/

section
variable {x y : B32} (hx : isNaN x = false) (hy : isNaN y = false)
include hx hy

theorem flt_of_fge_eq_false (h : fge x y = false) : flt x y = true := by
  obtain ⟨hlt, -, hge, -⟩ := comparisons_eq_rank hx hy
  exact hlt.mpr (not_le.mp (mt hge.mpr (Bool.eq_false_iff.mp h)))

theorem fle_of_fgt_eq_false (h : fgt x y = false) : fle x y = true := by
  obtain ⟨-, hgt, -, hle, -⟩ := comparisons_eq_rank hx hy
  exact hle.mpr (not_lt.mp (mt hgt.mpr (Bool.eq_false_iff.mp h)))

theorem fle_of_fle_eq_false (h : fle x y = false) : fle y x = true := by
  obtain ⟨-, -, -, hle, -⟩ := comparisons_eq_rank hx hy
  obtain ⟨-, -, -, hle', -⟩ := comparisons_eq_rank hy hx
  exact hle'.mpr (not_le.mp (mt hle.mpr (Bool.eq_false_iff.mp h))).le

end

/-- The voltages of points `lo` and `hi` stand on the two sides of the query, `hi`'s the lower one. -/
def Brackets (m : Memory) (v : B32) (lo hi : Nat) : Prop := fle (voltAt m hi) v = true ∧ flt v (voltAt m lo) = true

/-- The search moves an end of its window only to a point on that end's side of the query. -/
theorem brackets_of_searchEndsAt {m : Memory} {v : B32} {lo hi lo' hi' : Nat} (h : SearchEndsAt m v lo hi lo' hi')
    (hv : isNaN v = false) (hvolt : ∀ i ≤ hi, isNaN (voltAt m i) = false) (hb : Brackets m v lo hi) :
    Brackets m v lo' hi' := by
  induction h with
  | done => exact hb
  | @raiseLo lo hi _ _ hgap habove _ ih =>
    obtain ⟨hgt, -⟩ := comparisons_from_flt (hvolt ((lo + hi) / 2) (by omega)) hv
    exact ih hvolt ⟨hb.1, hgt.mp habove⟩
  | @lowerHi lo hi _ _ hgap hbelow _ ih =>
    have hmid := fle_of_fgt_eq_false (hvolt ((lo + hi) / 2) (by omega)) hv hbelow
    exact ih (fun i hi => hvolt i (by omega)) ⟨hmid, hb.2⟩

/-- A query that neither clamp takes lies between the two ends of the table. -/
theorem brackets_of_unclamped {m : Memory} {v : B32} {lo hi : Nat} (hv : isNaN v = false)
    (hlo : isNaN (voltAt m lo) = false) (hhi : isNaN (voltAt m hi) = false)
    (hfirst : fge v (voltAt m lo) = false) (hlast : fle v (voltAt m hi) = false) : Brackets m v lo hi :=
  ⟨fle_of_fle_eq_false hv hhi hlast, flt_of_fge_eq_false hv hlo hfirst⟩

/-! ## LUT_VERIFY and LUT_LOOKUP (R336, R337) -/

section
variable {s : State} (hp : s.params.wf = true) (hquiet : s.tblRace = false)
include hp hquiet

theorem exec_lutVerify_of_headerValid (hh : headerValid s.params s.tbl) :
    exec .lutVerify s = .next { s with lutOk := true, rc := .ok } := by
  rw [exec_lutVerify, execLutVerify, hquiet, if_neg Bool.false_ne_true, tblVerify_of_headerValid hp hh]
  rfl

theorem exec_lutVerify_of_not_headerValid (hh : ¬ headerValid s.params s.tbl) :
    exec .lutVerify s = .next { s with lutOk := false, rc := .tblInvalid } := by
  rw [exec_lutVerify, execLutVerify, hquiet, if_neg Bool.false_ne_true, tblVerify_of_not_headerValid hp hh]
  rfl

theorem exec_lutLookup_of_not_headerValid (v : B32) (hh : ¬ headerValid s.params s.tbl) :
    exec (.lutLookup v) s = .next (s.setLookup false pZero) := by
  rw [exec_lutLookup, execLutLookup, hquiet, if_neg Bool.false_ne_true, tblVerify_of_not_headerValid hp hh]

theorem exec_lutLookup_of_lookup {v k : B32} (hh : headerValid s.params s.tbl) (hk : lookup s.params s.tbl v = some k) :
    exec (.lutLookup v) s = .next (lookedUp s k) := by
  rw [exec_lutLookup, execLutLookup, hquiet, if_neg Bool.false_ne_true, tblVerify_of_headerValid hp hh, hk]
  rfl

end

/-- R335: the sentinel 0 K is −273.15 on the Celsius scale. -/
theorem k2c_pZero : k2c pZero = 0xC3889333#32 := by decide +kernel

theorem setLookup_sentinel (s : State) : s.setLookup false pZero =
    { s with lutOk := false, lutK := 0x00000000#32, lutC := 0xC3889333#32, rc := .tblInvalid } := by
  rw [← k2c_pZero]
  rfl

/-- R12: no temperature in kelvin is none in Celsius. -/
theorem lookedUp_cNaN (s : State) :
    lookedUp s cNaN = { s with lutOk := true, lutK := 0x7FC00000#32, lutC := 0x7FC00000#32, rc := .ok } := by
  rw [lookedUp, fsub_of_isNaN (.inl rfl)]
  rfl

/-- Settles O46: both header fields lie in the table memory, so the check answers and `lut_ok` is its answer. -/
theorem lutVerifyChecksTheHeader : Obligations.LutVerifyChecksTheHeader :=
  ⟨fun _ => decode_eq_lutVerify, fun _ hp hquiet =>
    ⟨exec_lutVerify_of_headerValid hp hquiet, exec_lutVerify_of_not_headerValid hp hquiet⟩⟩

/-- Settles O47: one value of `Lookup(v)` for each clause. -/
theorem lutLookupSentinelAndClamps : Obligations.LutLookupSentinelAndClamps := by
  refine ⟨fun _ => decode_eq_lutLookup, fun v s hp hquiet => ⟨fun hh => ?sentinel, fun hh hfirst => ?first,
    fun hh hfirst hlast => ?last, fun hh hv => ?nan, fun hh hone hfirst hlast => ?onePoint⟩⟩
  case sentinel => rw [exec_lutLookup_of_not_headerValid hp hquiet v hh, setLookup_sentinel]
  case first => exact exec_lutLookup_of_lookup hp hquiet hh (lookup_of_ge_first hp hh hfirst)
  case last => exact exec_lutLookup_of_lookup hp hquiet hh (lookup_of_le_last hp hh hfirst hlast)
  case nan => rw [exec_lutLookup_of_lookup hp hquiet hh (lookup_of_isNaN hp hh hv), lookedUp_cNaN]
  case onePoint =>
    rw [exec_lutLookup_of_lookup hp hquiet hh (lookup_of_one_point hp hh hone hfirst hlast), lookedUp_cNaN]

/-- Settles O48: the ends of the table bracket an unclamped query, and the search keeps the bracket down to
an adjacent pair. -/
theorem lutLookupInterpolatesInTheBracket : Obligations.LutLookupInterpolatesInTheBracket := by
  intro v s hp hquiet hh htwo hfirst hlast
  obtain ⟨lo, hlo, hends, hlookup⟩ := lookup_of_unclamped hp hh htwo hfirst hlast
  refine ⟨lo, hlo, hends, exec_lutLookup_of_lookup hp hquiet hh hlookup, fun ⟨hvolt, _⟩ hv => ?_⟩
  exact brackets_of_searchEndsAt hends hv (fun i hi => hvolt i (by omega))
    (brackets_of_unclamped hv (hvolt 0 (by omega)) (hvolt _ (by omega)) hfirst hlast)

end Sys2Proof.Machine
end

section
/-! Monotone arithmetic (00_scope.md R13, R15): rounding keeps order, so every operation with one finite operand held fixed
keeps or turns the order of the patterns put in for the other one, the infinities included. -/

namespace Sys2Proof.Machine

/-! ## Rounding keeps order -/

theorem nearestMag_congr {q q' : ℚ} (h : |q| = |q'|) : nearestMag q = nearestMag q' := by
  rcases abs_eq_abs.mp h with rfl | rfl
  · rfl
  · simp [nearestMag]

/-- Of two numbers the larger has no nearest place below that of the smaller. -/
theorem NearestEven.le_of_lt {q q' : ℚ} {r r' : Int} (h : NearestEven q r) (h' : NearestEven q' r') (hq : q < q') :
    r ≤ r' := by
  by_contra hlt
  have hvalue : rankValue r' < rankValue r := rankValue_strictMono (not_le.mp hlt)
  have hmid : (rankValue r - q) ^ 2 ≤ (rankValue r' - q) ^ 2 := sq_le_sq.mpr (h r').1
  have hmid' : (rankValue r' - q') ^ 2 ≤ (rankValue r - q') ^ 2 := sq_le_sq.mpr (h' r).1
  nlinarith only [hvalue, hmid, hmid', hq]

theorem nearestMag_mono {q q' : ℚ} (h : |q| ≤ |q'|) : nearestMag q ≤ nearestMag q' := by
  rcases h.eq_or_lt with he | hlt
  · exact (nearestMag_congr he).le
  · exact Int.ofNat_le.mp ((nearestEven_nearestMag q).le_of_lt (nearestEven_nearestMag q') hlt)

theorem rank_round32 (q : ℚ) : rank (round32 q) =
    if q < 0 then -((min (nearestMag q) 0x7F800000 : Nat) : Int) else (min (nearestMag q) 0x7F800000 : Nat) := by
  rw [round32, roundSigned_eq, rank_withSign _ (by omega)]
  simp only [decide_eq_true_eq]

theorem rank_round32_mono : Monotone fun q => rank (round32 q) := by
  intro q q' h
  simp only [rank_round32]
  by_cases hq : q < 0 <;> by_cases hq' : q' < 0
  · have hmag : nearestMag q' ≤ nearestMag q := nearestMag_mono (by rw [abs_of_neg hq, abs_of_neg hq']; linarith)
    rw [if_pos hq, if_pos hq']
    omega
  · rw [if_pos hq, if_neg hq']
    omega
  · exact absurd (h.trans_lt hq') hq
  · have hmag : nearestMag q ≤ nearestMag q' :=
      nearestMag_mono (by rwa [abs_of_nonneg (not_lt.mp hq), abs_of_nonneg (not_lt.mp hq')])
    rw [if_neg hq, if_neg hq']
    omega

/-! ## Results of finite operands -/

/-- `r` is the pattern that `q` rounds to, but for the sign of a zero. -/
structure RoundsTo (r : B32) (q : ℚ) : Prop where
  notNaN : isNaN r = false
  rank_eq : rank r = rank (round32 q)

theorem roundsTo_round32 (q : ℚ) : RoundsTo (round32 q) q := ⟨isNaN_roundSigned _ _, rfl⟩

theorem roundsTo_zero {r : B32} {q : ℚ} (hr : r = nZero ∨ r = pZero) (hq : q = 0) : RoundsTo r q := by
  subst hq
  rcases hr with rfl | rfl
  · exact ⟨rfl, by rw [round32_zero]; rfl⟩
  · exact ⟨rfl, by rw [round32_zero]⟩

theorem fle_of_roundsTo {r r' : B32} {q q' : ℚ} (h : RoundsTo r q) (h' : RoundsTo r' q') (hq : q ≤ q') :
    fle r r' = true := by
  obtain ⟨-, -, -, hle, -⟩ := comparisons_eq_rank h.notNaN h'.notNaN
  rw [hle, h.rank_eq, h'.rank_eq]
  exact rank_round32_mono hq

theorem withSign_zero_cases (neg : Bool) : withSign neg 0 = nZero ∨ withSign neg 0 = pZero := by
  rw [withSign_zero]
  exact ite_eq_or_eq _ _ _

section
variable {x y : B32} (hx : isFinite x = true) (hy : isFinite y = true)
include hx hy

theorem roundsTo_fadd : RoundsTo (fadd x y) (value x + value y) := by
  obtain ⟨hround, hzero, -⟩ := arithmetic_of_isFinite hx hy
  by_cases h : value x + value y = 0
  · rw [hzero h]
    exact roundsTo_zero (ite_eq_or_eq _ _ _) h
  · rw [hround h]
    exact roundsTo_round32 _

theorem roundsTo_fsub : RoundsTo (fsub x y) (value x - value y) := by
  rw [sub_eq_add_neg, ← value_negPattern]
  exact roundsTo_fadd hx ((isFinite_negPattern y).trans hy)

theorem roundsTo_fmul : RoundsTo (fmul x y) (value x * value y) := by
  obtain ⟨-, -, -, -, hround, hzero, -⟩ := arithmetic_of_isFinite hx hy
  by_cases h : value x * value y = 0
  · rw [hzero h]
    exact roundsTo_zero (withSign_zero_cases _) h
  · rw [hround h]
    exact roundsTo_round32 _

theorem roundsTo_fdiv (hy0 : value y ≠ 0) : RoundsTo (fdiv x y) (value x / value y) := by
  obtain ⟨-, -, -, -, -, -, hround, hzero, -⟩ := arithmetic_of_isFinite hx hy
  by_cases h : value x = 0
  · rw [hzero h hy0]
    exact roundsTo_zero (withSign_zero_cases _) (by rw [h, zero_div])
  · rw [hround h hy0]
    exact roundsTo_round32 _

end

/-! ## The sign of a difference -/

/-- The least positive pattern. -/
def leastPositive : B32 := 0x00000001#32

theorem value_leastPositive : value leastPositive = 1 / 2 ^ 149 := by
  have hunits : gridUnits 1 = 1 := rfl
  have h := rankValue_natCast 1
  rw [hunits, Nat.cast_one, Nat.cast_one] at h
  exact (value_eq_rankValue leastPositive).trans h

/-- Values are whole multiples of the least positive one, so two of them are no closer than that. -/
theorem leastPositive_le_sub {x y : B32} (h : value x < value y) : value leastPositive ≤ value y - value x := by
  obtain ⟨j, hj⟩ : ∃ j : Int, value x = j / 2 ^ 149 := ⟨_, value_eq_rankValue x⟩
  obtain ⟨k, hk⟩ : ∃ k : Int, value y = k / 2 ^ 149 := ⟨_, value_eq_rankValue y⟩
  rw [hj, hk, div_lt_div_iff_of_pos_right (by positivity), Int.cast_lt] at h
  have hstep : (1 : ℚ) ≤ k - j := by exact_mod_cast (show 1 ≤ k - j by omega)
  rw [value_leastPositive, hj, hk, ← sub_div]
  gcongr

theorem rank_pos_of_leastPositive_le {q : ℚ} (h : value leastPositive ≤ q) : 0 < rank (round32 q) := by
  have hself : round32 (value leastPositive) = leastPositive :=
    round32_value rfl (by rw [value_leastPositive]; positivity)
  have hmono : rank (round32 (value leastPositive)) ≤ rank (round32 q) := rank_round32_mono h
  rw [hself] at hmono
  exact hmono.trans_lt' (by decide)

theorem rank_neg_of_le_neg_leastPositive {q : ℚ} (h : q ≤ -value leastPositive) : rank (round32 q) < 0 := by
  have hself : round32 (value (negPattern leastPositive)) = negPattern leastPositive :=
    round32_value rfl (by rw [value_negPattern, value_leastPositive, neg_ne_zero]; positivity)
  have hmono : rank (round32 q) ≤ rank (round32 (value (negPattern leastPositive))) :=
    rank_round32_mono (h.trans_eq (value_negPattern _).symm)
  rw [hself] at hmono
  exact hmono.trans_lt (by decide)

section
variable {x y : B32} (hx : isFinite x = true) (hy : isFinite y = true)
include hx hy

theorem rank_fsub_pos (h : value y < value x) : 0 < rank (fsub x y) := by
  rw [(roundsTo_fsub hx hy).rank_eq]
  exact rank_pos_of_leastPositive_le (leastPositive_le_sub h)

theorem rank_fsub_neg (h : value x < value y) : rank (fsub x y) < 0 := by
  rw [(roundsTo_fsub hx hy).rank_eq]
  exact rank_neg_of_le_neg_leastPositive (by have := leastPositive_le_sub h; linarith)

end

theorem value_pos_iff_rank {x : B32} : 0 < value x ↔ 0 < rank x := by
  rw [value_eq_rankValue, ← rankValue_zero, rankValue_strictMono.lt_iff_lt]

theorem isZero_iff_rank {x : B32} : isZero x = true ↔ rank x = 0 := by
  rw [isZero_iff, rank_eq]
  split <;> omega

/-! ## Order-keeping functions of patterns -/

/-- The comparison `fle`, which no NaN passes, carries over from the arguments to the results. -/
def KeepsOrder (f : B32 → B32) : Prop := ∀ x y, fle x y = true → fle (f x) (f y) = true

/-- The comparison carries over the other way round. -/
def TurnsOrder (f : B32 → B32) : Prop := ∀ x y, fle x y = true → fle (f y) (f x) = true

theorem fle_iff {x y : B32} : fle x y = true ↔ isNaN x = false ∧ isNaN y = false ∧ rank x ≤ rank y := by
  simp [fle, and_assoc]

theorem fle_negPattern {x y : B32} : fle (negPattern y) (negPattern x) = fle x y := by
  rw [Bool.eq_iff_iff, fle_iff, fle_iff, isNaN_negPattern, isNaN_negPattern, rank_negPattern, rank_negPattern]
  constructor
  · exact fun ⟨hy, hx, h⟩ => ⟨hx, hy, by omega⟩
  · exact fun ⟨hx, hy, h⟩ => ⟨hy, hx, by omega⟩

/-- A pattern that is no NaN is finite or an end of the order. -/
theorem isFinite_or_end {x : B32} (h : isNaN x = false) : isFinite x = true ∨ x = pInf ∨ x = nInf := by
  rw [← isInf_iff_eq, isInf_iff, isFinite_iff]
  exact (isNaN_eq_false_iff.mp h).lt_or_eq

theorem fle_pInf {x : B32} (h : isNaN x = false) : fle x pInf = true := fle_iff.mpr ⟨h, rfl, (rank_bounds h).2⟩

theorem nInf_fle {x : B32} (h : isNaN x = false) : fle nInf x = true := fle_iff.mpr ⟨rfl, h, (rank_bounds h).1⟩

/-- A function that keeps the order of the finite patterns and the ends of the order keeps the order. -/
theorem keepsOrder_of_isFinite {f : B32 → B32}
    (hfin : ∀ x y, isFinite x = true → isFinite y = true → fle x y = true → fle (f x) (f y) = true)
    (hp : f pInf = pInf) (hn : f nInf = nInf) : KeepsOrder f := by
  intro x y h
  obtain ⟨hx, hy, hrank⟩ := fle_iff.mp h
  have hnan : ∀ z, isNaN z = false → isNaN (f z) = false := by
    intro z hz
    rcases isFinite_or_end hz with hz | rfl | rfl
    · have hrefl : fle z z = true := fle_iff.mpr ⟨isNaN_of_isFinite hz, isNaN_of_isFinite hz, le_rfl⟩
      obtain ⟨hfz, -⟩ := fle_iff.mp (hfin z z hz hz hrefl)
      exact hfz
    · rw [hp]; rfl
    · rw [hn]; rfl
  by_cases hxn : x = nInf
  · rw [hxn, hn]
    exact nInf_fle (hnan y hy)
  by_cases hyp : y = pInf
  · rw [hyp, hp]
    exact fle_pInf (hnan x hx)
  have hx' : x ≠ pInf := fun he => (rank_lt_pInf hy hyp).not_ge (he ▸ hrank)
  have hy' : y ≠ nInf := fun he => (rank_nInf_lt hx hxn).not_ge (he ▸ hrank)
  exact hfin x y ((isFinite_or_end hx).resolve_right (by simp [hx', hxn]))
    ((isFinite_or_end hy).resolve_right (by simp [hyp, hy'])) h

theorem turnsOrder_of_isFinite {f : B32 → B32}
    (hfin : ∀ x y, isFinite x = true → isFinite y = true → fle x y = true → fle (f y) (f x) = true)
    (hp : f pInf = nInf) (hn : f nInf = pInf) : TurnsOrder f := by
  have h : KeepsOrder fun x => negPattern (f x) :=
    keepsOrder_of_isFinite (fun x y hx hy h => fle_negPattern.trans (hfin x y hx hy h)) (by rw [hp]; rfl) (by rw [hn]; rfl)
  exact fun x y hxy => fle_negPattern.symm.trans (h x y hxy)

theorem value_le_of_fle {x y : B32} (h : fle x y = true) : value x ≤ value y := by
  obtain ⟨-, -, hrank⟩ := fle_iff.mp h
  exact value_le_iff.mpr hrank

section
variable {y : B32} (hy : isFinite y = true)
include hy

theorem keepsOrder_fsub : KeepsOrder fun x => fsub x y :=
  keepsOrder_of_isFinite
    (fun _ _ hx hx' h => fle_of_roundsTo (roundsTo_fsub hx hy) (roundsTo_fsub hx' hy)
      (sub_le_sub_right (value_le_of_fle h) _))
    (fsub_of_isInf_left rfl hy) (fsub_of_isInf_left rfl hy)

theorem keepsOrder_fadd : KeepsOrder fun x => fadd y x :=
  keepsOrder_of_isFinite
    (fun _ _ hx hx' h => fle_of_roundsTo (roundsTo_fadd hy hx) (roundsTo_fadd hy hx')
      (add_le_add_right (value_le_of_fle h) _))
    (fadd_of_isInf_right rfl hy) (fadd_of_isInf_right rfl hy)

/-- A factor and a divisor above 0 have a clear sign bit, and the infinities keep theirs. -/
theorem keepsOrder_fmul (hpos : 0 < value y) : KeepsOrder fun x => fmul x y := by
  have hsign : signBit y = false := (value_pos_iff_signBit hpos.ne').mp hpos
  have hz : isZero y = false := Bool.eq_false_iff.mpr fun hz => hpos.ne' (value_eq_zero_iff.mpr (isZero_iff.mp hz))
  refine keepsOrder_of_isFinite (fun x x' hx hx' h => fle_of_roundsTo (roundsTo_fmul hx hy) (roundsTo_fmul hx' hy)
    (mul_le_mul_of_nonneg_right (value_le_of_fle h) hpos.le)) ?_ ?_
  · rw [fmul_of_isInf_left rfl hy, hz, hsign]; rfl
  · rw [fmul_of_isInf_left rfl hy, hz, hsign]; rfl

theorem keepsOrder_fdiv (hpos : 0 < value y) : KeepsOrder fun x => fdiv x y := by
  have hsign : signBit y = false := (value_pos_iff_signBit hpos.ne').mp hpos
  refine keepsOrder_of_isFinite (fun x x' hx hx' h => fle_of_roundsTo (roundsTo_fdiv hx hy hpos.ne')
    (roundsTo_fdiv hx' hy hpos.ne') (div_le_div_of_nonneg_right (value_le_of_fle h) hpos.le)) ?_ ?_
  · rw [fdiv_of_isInf_left rfl hy, hsign]; rfl
  · rw [fdiv_of_isInf_left rfl hy, hsign]; rfl

theorem turnsOrder_fdiv (hneg : value y < 0) : TurnsOrder fun x => fdiv x y := by
  have hsign : signBit y = true := (value_neg_iff_signBit hneg.ne).mp hneg
  refine turnsOrder_of_isFinite (fun x x' hx hx' h => fle_of_roundsTo (roundsTo_fdiv hx' hy hneg.ne)
    (roundsTo_fdiv hx hy hneg.ne) (div_le_div_of_nonpos_of_le hneg.le (value_le_of_fle h))) ?_ ?_
  · rw [fdiv_of_isInf_left rfl hy, hsign]; rfl
  · rw [fdiv_of_isInf_left rfl hy, hsign]; rfl

end

end Sys2Proof.Machine
end

section
/-! The output mapper (47_output_mapper.md): its ops, the sign of its divisor (R379 (c)), and why it keeps the order of
temperatures (R379 (b)). -/

namespace Sys2Proof.Machine

/-! ## The clamp (R371) -/

theorem clampCurrent_of_isNaN {x : B32} (h : isNaN x = true) : clampCurrent x = cNaN := if_pos h

/-- Of a pattern that is no NaN the clamp compares ranks. -/
theorem clampCurrent_eq {x : B32} (h : isNaN x = false) :
    clampCurrent x = if rank x < rank f4 then f4 else if rank f20 < rank x then f20 else x := by
  obtain ⟨hlt, -⟩ := comparisons_eq_rank h (y := f4) rfl
  obtain ⟨-, hgt, -⟩ := comparisons_eq_rank h (y := f20) rfl
  simp only [clampCurrent, h, hlt, hgt, Bool.false_eq_true, if_false]

theorem rank_f4_lt_f20 : rank f4 < rank f20 := by decide

theorem isNaN_clampCurrent {x : B32} (h : isNaN x = false) : isNaN (clampCurrent x) = false := by
  rw [clampCurrent_eq h]
  split_ifs
  · rfl
  · rfl
  · exact h

theorem rank_clampCurrent {x : B32} (h : isNaN x = false) :
    rank (clampCurrent x) = max (rank f4) (min (rank x) (rank f20)) := by
  have hbounds := rank_f4_lt_f20
  rw [clampCurrent_eq h]
  split_ifs <;> omega

theorem keepsOrder_clampCurrent : KeepsOrder clampCurrent := by
  intro x y h
  obtain ⟨hx, hy, hrank⟩ := fle_iff.mp h
  refine fle_iff.mpr ⟨isNaN_clampCurrent hx, isNaN_clampCurrent hy, ?_⟩
  rw [rank_clampCurrent hx, rank_clampCurrent hy]
  exact max_le_max le_rfl (min_le_min hrank le_rfl)

/-- MAP_SET_CURRENT reads `a` (R377). -/
theorem decode_eq_mapSetCurrent {w : Bundle} (hop : opField w = 0x74) :
    decode w = .ok (.mapSetCurrent (w.extractLsb' 16 32)) := by
  rw [decode, hop]
  rfl

theorem execMapSetCurrent_eq (x : B32) (s : State) : execMapSetCurrent x s =
    .next { s with iOut := clampCurrent x, event := .ioutUpdate (clampCurrent x), rc := .ok } := rfl

/-- Settles O51: each clause is a branch of the clamp, told by the ranks; no comparison passes a NaN. -/
theorem mapSetCurrentClamps : Obligations.MapSetCurrentClamps := by
  refine ⟨fun _ => decode_eq_mapSetCurrent, fun x s =>
    ⟨clampCurrent x, (exec_mapSetCurrent x s).trans (execMapSetCurrent_eq x s), clampCurrent_of_isNaN, ?_⟩⟩
  cases hx : isNaN x with
  | true =>
    obtain ⟨hlt, -⟩ := comparisons_of_isNaN (x := x) (y := f4) (.inl hx)
    obtain ⟨-, hgt, -, hle, -⟩ := comparisons_of_isNaN (x := x) (y := f20) (.inl hx)
    exact ⟨fun h => absurd (hlt.symm.trans h) nofun, fun h => absurd (hgt.symm.trans h) nofun,
      fun _ h => absurd (hle.symm.trans h) nofun⟩
  | false =>
    obtain ⟨hlt, -, hge, -⟩ := comparisons_eq_rank hx (y := f4) rfl
    obtain ⟨-, hgt, -, hle, -⟩ := comparisons_eq_rank hx (y := f20) rfl
    rw [clampCurrent_eq hx]
    refine ⟨fun h => if_pos (hlt.mp h), fun h => ?high, fun hlo hhi => ?inside⟩
    case high =>
      have hhigh := hgt.mp h
      rw [if_neg (rank_f4_lt_f20.trans hhigh).not_gt, if_pos hhigh]
      rfl
    case inside => rw [if_neg (hge.mp hlo).not_gt, if_neg (hle.mp hhi).not_gt]

/-! ## The divisor of `Calc` (R370, R379 (c)) -/

theorem isZero_fsub_of_isInf {x y : B32} (hy : isNaN y = false) (hx : isInf x = true) : isZero (fsub x y) = false := by
  rcases isFinite_or_end hy with hfin | hend
  · rw [fsub_of_isInf_left hx hfin]
    exact isZero_of_isInf hx
  · obtain ⟨-, hsub, -⟩ := arithmetic_of_isInf hx (isInf_iff_eq.mpr hend)
    rw [hsub]
    split
    · rfl
    · exact isZero_of_isInf hx

theorem isZero_fsub_of_isFinite {x y : B32} (hx : isFinite x = true) (hy : isFinite y = true) (h : value x ≠ value y) :
    isZero (fsub x y) = false := by
  refine Bool.eq_false_iff.mpr fun hz => ?_
  have hzero := isZero_iff_rank.mp hz
  rcases h.lt_or_gt with hlt | hgt
  · exact (rank_fsub_neg hx hy hlt).ne hzero
  · exact (rank_fsub_pos hx hy hgt).ne' hzero

/-- Settles O52, class by class of the operands: a NaN or an infinity leaves no zero, and of finite temperatures the difference
is at least the least positive pattern. -/
theorem calcNeverDividesByZero : Obligations.CalcNeverDividesByZero := by
  intro t4 t20 hdiffer
  by_cases hnan : isNaN t20 = true ∨ isNaN t4 = true
  · rw [fsub_of_isNaN hnan]
    rfl
  obtain ⟨h20, h4⟩ : isNaN t20 = false ∧ isNaN t4 = false := by simpa using hnan
  rcases isFinite_or_end h20 with hfin20 | hend20
  · rcases isFinite_or_end h4 with hfin4 | hend4
    · obtain ⟨-, -, -, -, heq⟩ := comparisons_of_isFinite hfin20 hfin4
      exact isZero_fsub_of_isFinite hfin20 hfin4 (mt heq.mpr (Bool.eq_false_iff.mp hdiffer))
    · rw [fsub_of_isInf_right (isInf_iff_eq.mpr hend4) hfin20]
      exact isZero_of_isInf ((isInf_negPattern t4).trans (isInf_iff_eq.mpr hend4))
  · exact isZero_fsub_of_isInf h4 (isInf_iff_eq.mpr hend20)

/-! ## `Calc` keeps or turns the order of temperatures (R379 (b)) -/

/-- The formula of R370 outside the degenerate case. -/
theorem calcCurrent_of_differ {t4 t20 : B32} (h : feq t20 t4 = false) (t : B32) :
    calcCurrent t4 t20 t = clampCurrent (fadd f4 (fmul (fdiv (fsub t t4) (fsub t20 t4)) f16)) := by
  rw [calcCurrent, h, if_neg Bool.false_ne_true]

theorem calcCurrent_of_degenerate {t4 t20 : B32} (h : feq t20 t4 = true) (t : B32) : calcCurrent t4 t20 t = f12 := by
  rw [calcCurrent, h, if_pos rfl]

/-- What is done to the quotient of R370: every step of it keeps order. -/
theorem keepsOrder_afterQuotient : KeepsOrder fun x => clampCurrent (fadd f4 (fmul x f16)) := by
  have hf16 : 0 < value f16 := (value_pos_iff_signBit (by rw [Ne, value_eq_zero_iff]; decide)).mpr rfl
  intro x y h
  exact keepsOrder_clampCurrent _ _ (keepsOrder_fadd (y := f4) rfl _ _ (keepsOrder_fmul (y := f16) rfl hf16 _ _ h))

section
variable {t4 t20 : B32} (h4 : isFinite t4 = true) (h20 : isFinite t20 = true) (hspan : isFinite (fsub t20 t4) = true)
include h4 h20 hspan

theorem keepsOrder_calcCurrent (h : value t4 < value t20) : KeepsOrder (calcCurrent t4 t20) := by
  obtain ⟨-, -, -, -, heq⟩ := comparisons_of_isFinite h20 h4
  have hdiffer : feq t20 t4 = false := Bool.eq_false_iff.mpr (mt heq.mp h.ne')
  have hpos : 0 < value (fsub t20 t4) := value_pos_iff_rank.mpr (rank_fsub_pos h20 h4 h)
  intro x y hxy
  rw [calcCurrent_of_differ hdiffer, calcCurrent_of_differ hdiffer]
  exact keepsOrder_afterQuotient _ _ (keepsOrder_fdiv hspan hpos _ _ (keepsOrder_fsub h4 _ _ hxy))

theorem turnsOrder_calcCurrent (h : value t20 < value t4) : TurnsOrder (calcCurrent t4 t20) := by
  obtain ⟨-, -, -, -, heq⟩ := comparisons_of_isFinite h20 h4
  have hdiffer : feq t20 t4 = false := Bool.eq_false_iff.mpr (mt heq.mp h.ne)
  have hneg : value (fsub t20 t4) < 0 := value_neg_iff.mpr (rank_fsub_neg h20 h4 h)
  intro x y hxy
  rw [calcCurrent_of_differ hdiffer, calcCurrent_of_differ hdiffer]
  exact keepsOrder_afterQuotient _ _ (turnsOrder_fdiv hspan hneg _ _ (keepsOrder_fsub h4 _ _ hxy))

end

/-- Settles O53: of the steps of R370 only the division can turn the order, and does so where the span is below 0. -/
theorem calcIsMonotoneInTheTemperature : Obligations.CalcIsMonotoneInTheTemperature := by
  intro t4 t20 t t' h4 h20 _ _ hspan ht
  obtain ⟨hlt, hgt, -⟩ := comparisons_of_isFinite h4 h20
  obtain ⟨hlt', -⟩ := comparisons_of_isFinite h20 h4
  exact ⟨fun h => keepsOrder_calcCurrent h4 h20 hspan (hlt.mp h) t t' ht,
    fun h => turnsOrder_calcCurrent h4 h20 hspan (hlt'.mp h) t t' ht⟩

/-! ## The calibration ops and the formula (R370, R372 to R376) -/

theorem decode_eq_mapSetT4 {w : Bundle} (hop : opField w = 0x70) : decode w = .ok (.mapSetT4 (w.extractLsb' 16 32)) := by
  rw [decode, hop]
  rfl

theorem decode_eq_mapSetT20 {w : Bundle} (hop : opField w = 0x71) :
    decode w = .ok (.mapSetT20 (w.extractLsb' 16 32)) := by
  rw [decode, hop]
  rfl

theorem decode_eq_mapCalc {w : Bundle} (hop : opField w = 0x72) : decode w = .ok (.mapCalc (w.extractLsb' 16 32)) := by
  rw [decode, hop]
  rfl

theorem decode_eq_mapUpdate {w : Bundle} (hop : opField w = 0x73) :
    decode w = .ok (.mapUpdate (w.extractLsb' 16 32)) := by
  rw [decode, hop]
  rfl

theorem execMapSetT4_eq (t : B32) (s : State) : execMapSetT4 t s = .next { s with mapT4 := t, rc := .ok } := rfl

theorem execMapSetT20_eq (t : B32) (s : State) : execMapSetT20 t s = .next { s with mapT20 := t, rc := .ok } := rfl

section
variable {t x : B32} {s : State} (h : calcCurrent s.mapT4 s.mapT20 t = x)
include h

theorem exec_mapCalc_of_calcCurrent : exec (.mapCalc t) s = .next { s with mapRes := x, rc := .ok } := by
  subst h
  exact exec_mapCalc t s

theorem exec_mapUpdate_of_calcCurrent : exec (.mapUpdate t) s =
    .next { s with mapRes := x, iOut := x, event := .ioutUpdate x, rc := .ok } := by
  subst h
  exact exec_mapUpdate t s

end

/-- Settles O50: the two values of `Calc`, of the formula and of the degenerate case, as MAP_CALC and MAP_UPDATE write them. -/
theorem mapOpsFollowTheFormula : Obligations.MapOpsFollowTheFormula := by
  refine ⟨fun _ => decode_eq_mapSetT4, fun _ => decode_eq_mapSetT20, fun _ => decode_eq_mapCalc,
    fun _ => decode_eq_mapUpdate, fun t s => ⟨(exec_mapSetT4 t s).trans (execMapSetT4_eq t s),
      (exec_mapSetT20 t s).trans (execMapSetT20_eq t s), fun hdiffer x hx => ?formula, fun hdegenerate => ?degenerate⟩⟩
  case formula =>
    have hcalc := (calcCurrent_of_differ hdiffer t).trans hx.symm
    exact ⟨exec_mapCalc_of_calcCurrent hcalc, exec_mapUpdate_of_calcCurrent hcalc⟩
  case degenerate =>
    have hcalc := calcCurrent_of_degenerate hdegenerate t
    exact ⟨exec_mapCalc_of_calcCurrent hcalc, exec_mapUpdate_of_calcCurrent hcalc⟩

end Sys2Proof.Machine
end

section
/-! How an op ends (60_exceptions.md R401, R402, R404, R406): every op answers a next state, and its result code says what it
has written. -/

namespace Sys2Proof.Machine

/-! ## Every op answers a next state -/

/-- On a valid header every query falls in one of the cases of R333, all of which read points that exist (R87). -/
theorem exists_lookup {p : Params} {m : Memory} (hp : p.wf = true) (hh : headerValid p m) (v : B32) :
    ∃ k, lookup p m v = some k := by
  cases hfirst : fge v (voltAt m 0) with
  | true => exact ⟨_, lookup_of_ge_first hp hh hfirst⟩
  | false =>
    cases hlast : fle v (voltAt m (headerCount m - 1)) with
    | true => exact ⟨_, lookup_of_le_last hp hh hfirst hlast⟩
    | false =>
      have hpos := headerCount_pos hh
      obtain hone | htwo : headerCount m = 1 ∨ 2 ≤ headerCount m := by omega
      · rw [hone] at hlast
        exact ⟨_, lookup_of_one_point hp hh hone hfirst hlast⟩
      · obtain ⟨_, -, -, hlookup⟩ := lookup_of_unclamped hp hh htwo hfirst hlast
        exact ⟨_, hlookup⟩

section
variable {s : State} (hrace : s.tblRace = true)
include hrace

/-- R453: the LUT ops do not read a table that changes. -/
theorem exec_lutVerify_of_race : exec .lutVerify s = .next s.lutRace := by
  rw [exec_lutVerify, execLutVerify, if_pos hrace]

theorem exec_lutLookup_of_race (v : B32) : exec (.lutLookup v) s = .next s.lutRace := by
  rw [exec_lutLookup, execLutLookup, if_pos hrace]

end

section
variable {s : State} (hp : s.params.wf = true)
include hp

theorem exec_lutVerify_completes : ∃ t, exec .lutVerify s = .next t := by
  cases hrace : s.tblRace with
  | true => exact ⟨_, exec_lutVerify_of_race hrace⟩
  | false =>
    by_cases hh : headerValid s.params s.tbl
    · exact ⟨_, exec_lutVerify_of_headerValid hp hrace hh⟩
    · exact ⟨_, exec_lutVerify_of_not_headerValid hp hrace hh⟩

theorem exec_lutLookup_completes (v : B32) : ∃ t, exec (.lutLookup v) s = .next t := by
  cases hrace : s.tblRace with
  | true => exact ⟨_, exec_lutLookup_of_race hrace v⟩
  | false =>
    by_cases hh : headerValid s.params s.tbl
    · obtain ⟨k, hk⟩ := exists_lookup hp hh v
      exact ⟨_, exec_lutLookup_of_lookup hp hrace hh hk⟩
    · exact ⟨_, exec_lutLookup_of_not_headerValid hp hrace v hh⟩

end

/-- Settles O12: only the LUT ops have another outcome in their meaning, and R6 keeps their reads inside the table. -/
theorem everyOpCompletes : Obligations.EveryOpCompletes := fun i s hp => by
  cases i with
  | lutVerify => exact exec_lutVerify_completes hp
  | lutLookup v => exact exec_lutLookup_completes hp v
  | nop | crcInit | crcByte | rxFeed | rxReset | txPlWrite | txAck | txData | txReport | medPush | medEval | medClear
  | mafPush | mafClear | medMaf | mapSetT4 | mapSetT20 | mapCalc | mapUpdate | mapSetCurrent => exact ⟨_, rfl⟩

/-! ## Result codes -/

/-- What `t` is of `s`, by the result code with which the op `i` ends (R402, R404). -/
inductive EndsWith (i : Instr) (s t : State) : Prop where
  | ok (hrc : t.rc = .ok)
  | medNotFull (hi : i = .medEval ∨ i = .medMaf) (ht : t = { s with rc := .medNotFull })
  | race (hi : i = .lutVerify ∨ ∃ v, i = .lutLookup v) (hrace : s.tblRace = true) (ht : t = s.lutRace)
  | badHeader (hi : i = .lutVerify) (ht : t = { s with lutOk := false, rc := .tblInvalid })
  | noLookup (v : B32) (hi : i = .lutLookup v)
      (ht : t = { s with lutOk := false, lutK := 0x00000000#32, lutC := 0xC3889333#32, rc := .tblInvalid })

theorem endsWith_of_exec {i : Instr} {s t : State} (hx : exec i s = .next t) : EndsWith i s t := by
  cases i with
  | nop | crcInit | crcByte | rxFeed | rxReset | txPlWrite | txAck | txData | txReport | medPush | medClear | mafPush
  | mafClear | mapSetT4 | mapSetT20 | mapCalc | mapUpdate | mapSetCurrent =>
    cases hx
    exact .ok rfl
  | medEval =>
    cases hx
    split
    · exact .medNotFull (.inl rfl) rfl
    · exact .ok rfl
  | medMaf =>
    cases hx
    split
    · exact .medNotFull (.inr rfl) rfl
    · exact .ok rfl
  | lutVerify =>
    rcases execLutVerify_cases hx with ⟨hrace, ht⟩ | ⟨-, ok, -, ht⟩
    · exact .race (.inl rfl) hrace ht
    · cases ok with
      | true => exact .ok (ht ▸ rfl)
      | false => exact .badHeader rfl ht
  | lutLookup v =>
    rcases execLutLookup_cases hx with ⟨hrace, ht⟩ | ⟨-, -, k, -, ht⟩ | ⟨-, -, ht⟩
    · exact .race (.inr ⟨v, rfl⟩) hrace ht
    · exact .ok (ht ▸ rfl)
    · exact .noLookup v rfl (ht.trans (setLookup_sentinel s))

/-- R453: the code of a LUT op on a table that changes stays within those of a LUT op. -/
theorem lutRace_rc_cases (s : State) : s.lutRace.rc = .ok ∨ s.lutRace.rc = .tblInvalid := ite_eq_or_eq _ _ _

/-- Settles O13. -/
theorem resultCodesOfEachOp : Obligations.ResultCodesOfEachOp := fun i s t hx => by
  cases endsWith_of_exec hx with
  | ok hrc => exact .inl hrc
  | medNotFull hi ht => exact .inr (.inl ⟨hi, ht ▸ rfl⟩)
  | race hi _ ht => exact ht ▸ (lutRace_rc_cases s).imp id fun hrc => .inr ⟨hi, hrc⟩
  | badHeader hi ht => exact .inr (.inr ⟨.inl hi, ht ▸ rfl⟩)
  | noLookup v hi ht => exact .inr (.inr ⟨.inr ⟨v, hi⟩, ht ▸ rfl⟩)

/-- Settles O14: a code tells the ways in which an op can end apart, but for a table that changes during the op. -/
theorem errorsNeverHalfApplyAnOp : Obligations.ErrorsNeverHalfApplyAnOp := fun i s t hx => by
  cases endsWith_of_exec hx with
  | ok hrc => simp [hrc]
  | medNotFull _ ht =>
    have hrc : t.rc = .medNotFull := congrArg State.rc ht
    exact ⟨fun _ => ht, by simp [hrc]⟩
  | race _ hrace ht =>
    have hrc : t.rc ≠ .medNotFull := by rcases lutRace_rc_cases s with hrc | hrc <;> simp only [ht, hrc] <;> decide
    exact ⟨fun h => absurd h hrc, by simp [hrace]⟩
  | badHeader hi ht =>
    have hrc : t.rc = .tblInvalid := congrArg State.rc ht
    exact ⟨by simp [hrc], fun _ _ => .inl ⟨hi, ht⟩⟩
  | noLookup v hi ht =>
    have hrc : t.rc = .tblInvalid := congrArg State.rc ht
    exact ⟨by simp [hrc], fun _ _ => .inr ⟨v, hi, ht⟩⟩

/-- Settles O49: the free values go into the fields that are put back. -/
theorem tableChangeDuringALutOp : Obligations.TableChangeDuringALutOp := fun i s hi hrace => by
  have hx : exec i s = .next s.lutRace := by
    rcases hi with rfl | ⟨v, rfl⟩
    · exact exec_lutVerify_of_race hrace
    · exact exec_lutLookup_of_race hrace v
  exact ⟨s.lutRace, hx, lutRace_rc_cases s, rfl⟩

end Sys2Proof.Machine
end

section
/-! The units do not see each other (70_reset_and_hazards.md R457): an op writes its own unit, `rc`, the event and the model's
count of free values, and what it writes depends on its own unit, the table and the parameters only. MED_MAF alone takes part
in two units. -/

namespace Sys2Proof.Machine

/-! ## What an op leaves unchanged -/

/-- `s` with the unit `u` as it is in `t`. -/
def withUnitOf (u : BlockUnit) (t s : State) : State :=
  match u with
  | .control => s
  | .crc => { s with crcAcc := t.crcAcc }
  | .rx =>
    { s with
      rxState := t.rxState, rxCmd := t.rxCmd, rxLen := t.rxLen, rxIdx := t.rxIdx, rxCrcRx := t.rxCrcRx
      rxCrcCalc := t.rxCrcCalc, rxBuf := t.rxBuf, rxEvt := t.rxEvt, rxFv := t.rxFv }
  | .tx => { s with txPl := t.txPl, txBuf := t.txBuf, txLen := t.txLen }
  | .med => { s with medBuf := t.medBuf, medWr := t.medWr, medCnt := t.medCnt, medOut := t.medOut }
  | .maf => { s with mafWin := t.mafWin, mafWr := t.mafWr, mafCnt := t.mafCnt, mafOut := t.mafOut }
  | .lut => { s with lutOk := t.lutOk, lutK := t.lutK, lutC := t.lutC }
  | .map => { s with mapT4 := t.mapT4, mapT20 := t.mapT20, mapRes := t.mapRes, iOut := t.iOut }

/-- Taking over one unit leaves every other one. -/
theorem sameUnit_withUnitOf {u u' : BlockUnit} (h : u ≠ u') (s t : State) : sameUnit u s (withUnitOf u' t s) := by
  cases u <;> cases u'
  case control.control | crc.crc | rx.rx | tx.tx | med.med | maf.maf | lut.lut | map.map => exact absurd rfl h
  all_goals simp [sameUnit, withUnitOf]

/-- `rc`, the event and the count of free values belong to no unit. -/
theorem sameUnit_setOutcome {u : BlockUnit} {s t : State} (h : sameUnit u s t) (code : ResultCode) (e : Event) (k : Nat) :
    sameUnit u s { t with rc := code, event := e, freeIdx := k } := by
  cases u <;> exact h

/-- `t` is `s` but for the unit `u`, `rc`, the event and the count of free values. -/
def OnlyUnit (u : BlockUnit) (s t : State) : Prop :=
  t = { withUnitOf u t s with rc := t.rc, event := t.event, freeIdx := t.freeIdx }

theorem OnlyUnit.sameUnit {u u' : BlockUnit} {s t : State} (h : OnlyUnit u' s t) (hu : u ≠ u') : sameUnit u s t := by
  rw [h]
  exact sameUnit_setOutcome (sameUnit_withUnitOf hu s t) _ _ _

theorem onlyUnit_rxFed (s : State) (d : Byte) : OnlyUnit .rx s (rxFed s d) := by
  cases hst : s.rxState with
  | awaitingHead =>
    by_cases hd : d = headMarker
    · subst hd
      rw [rxFed_awaitingHead_head hst]
      rfl
    · rw [rxFed_awaitingHead_of_ne hst hd]
      rfl
  | gotCmd => rw [rxFed_gotCmd hst]; rfl
  | gotLen => rw [rxFed_gotLen hst]; rfl
  | collectingPayload => rw [rxFed_collectingPayload hst]; rfl
  | gotCrcLow => rw [rxFed_gotCrcLow hst]; rfl
  | gotCrcHigh => rw [rxFed_gotCrcHigh hst]; rfl
  | awaitingTail =>
    by_cases hd : d = tailMarker
    · subst hd
      by_cases hcrc : s.rxCrcRx = s.rxCrcCalc
      · rw [rxFed_awaitingTail_match hst hcrc]
        rfl
      · rw [rxFed_awaitingTail_mismatch hst hcrc]
        rfl
    · rw [rxFed_awaitingTail_of_ne hst hd]
      rfl

theorem onlyUnit_exec {i : Instr} {s t : State} (hx : exec i s = .next t) (hi : i ≠ .medMaf) : OnlyUnit (unitOf i) s t := by
  cases i with
  | nop | crcInit | crcByte | rxReset | txPlWrite | txAck | txData | txReport | medPush | medClear | mafPush | mafClear
  | mapSetT4 | mapSetT20 | mapCalc | mapUpdate | mapSetCurrent =>
    cases hx
    rfl
  | rxFeed d =>
    cases hx
    exact onlyUnit_rxFed s d
  | medEval =>
    cases hx
    split
    · rfl
    · rfl
  | medMaf => exact absurd rfl hi
  | lutVerify =>
    rcases execLutVerify_cases hx with ⟨-, rfl⟩ | ⟨-, ok, -, rfl⟩
    · rfl
    · rfl
  | lutLookup v =>
    rcases execLutLookup_cases hx with ⟨-, rfl⟩ | ⟨-, -, k, -, rfl⟩ | ⟨-, -, rfl⟩
    · rfl
    · rfl
    · rfl

/-- MED_MAF writes the median besides its own unit (R305). -/
theorem onlyUnit_exec_medMaf {s t : State} (hx : exec .medMaf s = .next t) : OnlyUnit .maf { s with medOut := t.medOut } t := by
  cases hx
  split
  · rfl
  · rfl

/-- Settles O56. -/
theorem opsLeaveOtherUnitsUnchanged : Obligations.OpsLeaveOtherUnitsUnchanged := fun i s t hx => by
  by_cases hi : i = .medMaf
  · subst hi
    have honly := onlyUnit_exec_medMaf hx
    refine ⟨fun u hu hmed => ?_, fun _ => ?_⟩
    · have hsame := honly.sameUnit hu
      cases u with
      | med => exact absurd rfl (hmed rfl)
      | _ => exact hsame
    · obtain ⟨hbuf, hwr, hcnt, -⟩ : sameUnit .med _ t := honly.sameUnit nofun
      exact ⟨hbuf.symm, hwr.symm, hcnt.symm⟩
  · exact ⟨fun u hu _ => (onlyUnit_exec hx hi).sameUnit hu, fun h => absurd h hi⟩

/-! ## What an op depends on -/

/-- Two states agree on all that an op of the unit `u` can read and on the event, which not every op writes. -/
structure Agree (u : BlockUnit) (s s' : State) : Prop where
  unit : sameUnit u s s'
  platform : samePlatform s s'
  event : s.event = s'.event

/-- From `s'` the op `i` answers what it answers from a state with next state `t`, as far as its own unit goes. -/
def AnswersAlike (i : Instr) (s' t : State) : Prop :=
  ∃ t', exec i s' = .next t' ∧ Agree (unitOf i) t t' ∧ t.rc = t'.rc

section
variable {s s' t : State}

theorem answersAlike_nop (h : Agree .control s s') (hx : exec .nop s = .next t) : AnswersAlike .nop s' t := by
  cases hx
  exact ⟨_, rfl, { h with unit := trivial }, rfl⟩

/-! ### CRC -/

theorem answersAlike_crcInit (h : Agree .crc s s') (hx : exec .crcInit s = .next t) : AnswersAlike .crcInit s' t := by
  cases hx
  exact ⟨_, rfl, { h with unit := rfl }, rfl⟩

theorem answersAlike_crcByte {d : Byte} (h : Agree .crc s s') (hx : exec (.crcByte d) s = .next t) :
    AnswersAlike (.crcByte d) s' t := by
  cases hx
  exact ⟨_, rfl, { h with unit := congrArg (crc16Step · d) h.unit }, rfl⟩

/-! ### Frame parser -/

/-- Parsers in one state read a byte alike: each branch of R202 writes functions of the parser's fields. -/
theorem agree_rxFed (h : Agree .rx s s') (d : Byte) : Agree .rx (rxFed s d) (rxFed s' d) := by
  obtain ⟨⟨hstate, hcmd, hlen, hidx, hcrcRx, hcrcCalc, hbuf, -, hfv⟩, hplat, hev⟩ := h
  cases hst : s.rxState with
  | awaitingHead =>
    have hst' := hstate.symm.trans hst
    by_cases hd : d = headMarker
    · subst hd
      rw [rxFed_awaitingHead_head hst, rxFed_awaitingHead_head hst']
      exact ⟨⟨rfl, hcmd, hlen, rfl, hcrcRx, rfl, hbuf, rfl, rfl⟩, hplat, hev⟩
    · rw [rxFed_awaitingHead_of_ne hst hd, rxFed_awaitingHead_of_ne hst' hd]
      exact ⟨⟨hstate, hcmd, hlen, hidx, hcrcRx, hcrcCalc, hbuf, rfl, hfv⟩, hplat, hev⟩
  | gotCmd =>
    rw [rxFed_gotCmd hst, rxFed_gotCmd (hstate.symm.trans hst), hcrcCalc]
    exact ⟨⟨rfl, rfl, hlen, hidx, hcrcRx, rfl, hbuf, rfl, hfv⟩, hplat, hev⟩
  | gotLen =>
    rw [rxFed_gotLen hst, rxFed_gotLen (hstate.symm.trans hst), hcrcCalc]
    exact ⟨⟨rfl, hcmd, rfl, rfl, hcrcRx, rfl, hbuf, rfl, hfv⟩, hplat, hev⟩
  | collectingPayload =>
    rw [rxFed_collectingPayload hst, rxFed_collectingPayload (hstate.symm.trans hst), hcrcCalc, hidx, hlen, hbuf]
    exact ⟨⟨rfl, hcmd, rfl, rfl, hcrcRx, rfl, rfl, rfl, hfv⟩, hplat, hev⟩
  | gotCrcLow =>
    rw [rxFed_gotCrcLow hst, rxFed_gotCrcLow (hstate.symm.trans hst)]
    exact ⟨⟨rfl, hcmd, hlen, hidx, rfl, hcrcCalc, hbuf, rfl, hfv⟩, hplat, hev⟩
  | gotCrcHigh =>
    rw [rxFed_gotCrcHigh hst, rxFed_gotCrcHigh (hstate.symm.trans hst), hcrcRx]
    exact ⟨⟨rfl, hcmd, hlen, hidx, rfl, hcrcCalc, hbuf, rfl, hfv⟩, hplat, hev⟩
  | awaitingTail =>
    have hst' := hstate.symm.trans hst
    by_cases hd : d = tailMarker
    · subst hd
      by_cases hcrc : s.rxCrcRx = s.rxCrcCalc
      · have hcrc' : s'.rxCrcRx = s'.rxCrcCalc := hcrcRx ▸ hcrcCalc ▸ hcrc
        rw [rxFed_awaitingTail_match hst hcrc, rxFed_awaitingTail_match hst' hcrc', hcmd, hlen]
        exact ⟨⟨rfl, rfl, rfl, hidx, hcrcRx, hcrcCalc, hbuf, rfl, rfl⟩, hplat, rfl⟩
      · have hcrc' : s'.rxCrcRx ≠ s'.rxCrcCalc := hcrcRx ▸ hcrcCalc ▸ hcrc
        rw [rxFed_awaitingTail_mismatch hst hcrc, rxFed_awaitingTail_mismatch hst' hcrc', hcmd]
        exact ⟨⟨rfl, rfl, hlen, hidx, hcrcRx, hcrcCalc, hbuf, rfl, hfv⟩, hplat, rfl⟩
    · rw [rxFed_awaitingTail_of_ne hst hd, rxFed_awaitingTail_of_ne hst' hd]
      exact ⟨⟨rfl, hcmd, hlen, hidx, hcrcRx, hcrcCalc, hbuf, rfl, hfv⟩, hplat, hev⟩

theorem answersAlike_rxFeed {d : Byte} (h : Agree .rx s s') (hx : exec (.rxFeed d) s = .next t) :
    AnswersAlike (.rxFeed d) s' t := by
  cases hx
  exact ⟨_, rfl, agree_rxFed h d, rfl⟩

theorem answersAlike_rxReset (h : Agree .rx s s') (hx : exec .rxReset s = .next t) : AnswersAlike .rxReset s' t := by
  obtain ⟨-, hcmd, hlen, hidx, hcrcRx, hcrcCalc, hbuf, -⟩ := h.unit
  cases hx
  exact ⟨_, rfl, { h with unit := ⟨rfl, hcmd, hlen, hidx, hcrcRx, hcrcCalc, hbuf, rfl, rfl⟩ }, rfl⟩

/-! ### Frame encoder -/

/-- A frame of one command and payload is written over the same buffer. -/
theorem agree_emitFrame (h : Agree .tx s s') (cmd : Byte) (p : List Byte) :
    Agree .tx ((s.emitFrame cmd p).setRc .ok) ((s'.emitFrame cmd p).setRc .ok) := by
  obtain ⟨hpl, hbuf, -⟩ := h.unit
  exact ⟨⟨hpl, congrArg (writeFrameFrom · 0 (buildFrame cmd p)) hbuf, rfl⟩, h.platform, rfl⟩

theorem answersAlike_txPlWrite {idx d : Byte} (h : Agree .tx s s') (hx : exec (.txPlWrite idx d) s = .next t) :
    AnswersAlike (.txPlWrite idx d) s' t := by
  obtain ⟨hpl, hbuf, hlen⟩ := h.unit
  cases hx
  exact ⟨_, rfl, { h with unit := ⟨congrArg (fun v : Vector Byte 256 => v.set idx.toNat d idx.isLt) hpl, hbuf, hlen⟩ }, rfl⟩

theorem answersAlike_txAck {cmd status : Byte} (h : Agree .tx s s') (hx : exec (.txAck cmd status) s = .next t) :
    AnswersAlike (.txAck cmd status) s' t := by
  cases hx
  exact ⟨_, rfl, agree_emitFrame h _ _, rfl⟩

theorem answersAlike_txData {cmd n : Byte} (h : Agree .tx s s') (hx : exec (.txData cmd n) s = .next t) :
    AnswersAlike (.txData cmd n) s' t := by
  obtain ⟨hpl, -⟩ := h.unit
  cases hx
  rw [hpl]
  exact ⟨_, rfl, agree_emitFrame h _ _, rfl⟩

theorem answersAlike_txReport {cmd : Byte} {temp volt cur : B32} (h : Agree .tx s s')
    (hx : exec (.txReport cmd temp volt cur) s = .next t) : AnswersAlike (.txReport cmd temp volt cur) s' t := by
  cases hx
  exact ⟨_, rfl, agree_emitFrame h _ _, rfl⟩

/-! ### Median filter and moving average -/

theorem answersAlike_medPush {x : B32} (h : Agree .med s s') (hx : exec (.medPush x) s = .next t) :
    AnswersAlike (.medPush x) s' t := by
  obtain ⟨hbuf, hwr, hcnt, hout⟩ := h.unit
  cases hx
  refine ⟨_, rfl, { h with unit := ⟨?_, ?_, ?_, hout⟩ }, rfl⟩
  · simp only [setRc_medBuf, hbuf, hwr]
  · simp only [setRc_medWr, hwr]
  · simp only [setRc_medCnt, hcnt]

theorem answersAlike_medEval (h : Agree .med s s') (hx : exec .medEval s = .next t) : AnswersAlike .medEval s' t := by
  obtain ⟨hbuf, hwr, hcnt, hout⟩ := h.unit
  obtain hpartial | hfull : s.medCnt.val < 5 ∨ s.medCnt.val = 5 := by omega
  · cases (execMedEval_of_partial hpartial).symm.trans hx
    exact ⟨_, execMedEval_of_partial (hcnt ▸ hpartial), { h with unit := h.unit }, rfl⟩
  · cases (execMedEval_of_full hfull).symm.trans hx
    exact ⟨_, execMedEval_of_full (hcnt ▸ hfull), { h with unit := ⟨hbuf, hwr, hcnt, congrArg median5 hbuf⟩ }, rfl⟩

theorem answersAlike_medClear (h : Agree .med s s') (hx : exec .medClear s = .next t) : AnswersAlike .medClear s' t := by
  obtain ⟨-, -, -, hout⟩ := h.unit
  cases hx
  exact ⟨_, rfl, { h with unit := ⟨rfl, rfl, rfl, hout⟩ }, rfl⟩

theorem agree_mafPushed (h : Agree .maf s s') (x : B32) : Agree .maf (mafPushed x s) (mafPushed x s') := by
  obtain ⟨hwin, hwr, hcnt, -⟩ := h.unit
  have hwin' : (mafPushed x s).mafWin = (mafPushed x s').mafWin := by
    simp only [mafPushed, State.pushMean, setRc_mafWin, hwin, hwr]
  have hcnt' : (mafPushed x s).mafCnt = (mafPushed x s').mafCnt := by
    simp only [mafPushed, State.pushMean, setRc_mafCnt, hcnt]
  refine { h with unit := ⟨hwin', ?_, hcnt', ?_⟩ }
  · simp only [mafPushed, State.pushMean, setRc_mafWr, hwr]
  · rw [mafPushed_mafOut, mafPushed_mafOut, hwin', hcnt']

theorem answersAlike_mafPush {x : B32} (h : Agree .maf s s') (hx : exec (.mafPush x) s = .next t) :
    AnswersAlike (.mafPush x) s' t := by
  cases hx
  exact ⟨_, rfl, agree_mafPushed h x, rfl⟩

theorem answersAlike_mafClear (h : Agree .maf s s') (hx : exec .mafClear s = .next t) : AnswersAlike .mafClear s' t := by
  cases hx
  exact ⟨_, rfl, { h with unit := ⟨rfl, rfl, rfl, rfl⟩ }, rfl⟩

/-- MED_MAF reads both units of its name (R305). -/
theorem answersAlike_medMaf (h : Agree .maf s s') (hmed : sameUnit .med s s') (hx : exec .medMaf s = .next t) :
    ∃ t', exec .medMaf s' = .next t' ∧ Agree .maf t t' ∧ t.rc = t'.rc ∧ sameUnit .med t t' := by
  obtain ⟨hbuf, hwr, hcnt, hout⟩ := hmed
  obtain hpartial | hfull : s.medCnt.val < 5 ∨ s.medCnt.val = 5 := by omega
  · cases (execMedMaf_of_partial hpartial).symm.trans hx
    exact ⟨_, execMedMaf_of_partial (hcnt ▸ hpartial), { h with }, rfl, hbuf, hwr, hcnt, hout⟩
  · cases (execMedMaf_of_full hfull).symm.trans hx
    have hwritten : Agree .maf { s with medOut := median5 s.medBuf } { s' with medOut := median5 s'.medBuf } := { h with }
    refine ⟨_, execMedMaf_of_full (hcnt ▸ hfull), ?_, rfl, hbuf, hwr, hcnt, congrArg median5 hbuf⟩
    rw [← hbuf] at hwritten ⊢
    exact agree_mafPushed hwritten _

/-! ### Lookup -/

theorem agree_lutRace (h : Agree .lut s s') : Agree .lut s.lutRace s'.lutRace ∧ s.lutRace.rc = s'.lutRace.rc := by
  obtain ⟨htbl, hparams, hrace, hfree⟩ := h.platform
  simp only [State.lutRace, hfree]
  exact ⟨⟨⟨rfl, rfl, rfl⟩, ⟨htbl, hparams, hrace, rfl⟩, h.event⟩, trivial⟩

/-- The state after LUT_VERIFY has found the header valid or not (R336). -/
def lutVerified (ok : Bool) (s : State) : State :=
  ({ s with lutOk := ok } : State).setRc (if ok then .ok else .tblInvalid)

section
variable {u : State} (hquiet : u.tblRace = false)
include hquiet

theorem exec_lutVerify_of_tblVerify {ok : Bool} (hok : tblVerify u.params u.tbl = some ok) :
    exec .lutVerify u = .next (lutVerified ok u) := by
  simp only [exec_lutVerify, execLutVerify, hquiet, Bool.false_eq_true, if_false, hok, lutVerified]

theorem exec_lutLookup_of_valid {v k : B32} (hok : tblVerify u.params u.tbl = some true)
    (hk : lookup u.params u.tbl v = some k) : exec (.lutLookup v) u = .next (u.setLookup true k) := by
  simp only [exec_lutLookup, execLutLookup, hquiet, Bool.false_eq_true, if_false, hok, hk]

theorem exec_lutLookup_of_invalid (v : B32) (hok : tblVerify u.params u.tbl = some false) :
    exec (.lutLookup v) u = .next (u.setLookup false pZero) := by
  simp only [exec_lutLookup, execLutLookup, hquiet, Bool.false_eq_true, if_false, hok]

end

theorem answersAlike_lutVerify (h : Agree .lut s s') (hx : exec .lutVerify s = .next t) : AnswersAlike .lutVerify s' t := by
  obtain ⟨htbl, hparams, hrace, -⟩ := h.platform
  obtain ⟨-, hk, hc⟩ := h.unit
  rcases execLutVerify_cases hx with ⟨hr, rfl⟩ | ⟨hr, ok, hok, rfl⟩
  · exact ⟨_, exec_lutVerify_of_race (hrace ▸ hr), agree_lutRace h⟩
  · rw [htbl, hparams] at hok
    exact ⟨_, exec_lutVerify_of_tblVerify (hrace ▸ hr) hok, { h with unit := ⟨rfl, hk, hc⟩ }, rfl⟩

theorem agree_setLookup (h : Agree .lut s s') (ok : Bool) (k : B32) : Agree .lut (s.setLookup ok k) (s'.setLookup ok k) :=
  { h with unit := ⟨rfl, rfl, rfl⟩ }

theorem answersAlike_lutLookup {v : B32} (h : Agree .lut s s') (hx : exec (.lutLookup v) s = .next t) :
    AnswersAlike (.lutLookup v) s' t := by
  obtain ⟨htbl, hparams, hrace, -⟩ := h.platform
  rcases execLutLookup_cases hx with ⟨hr, rfl⟩ | ⟨hr, hok, k, hk, rfl⟩ | ⟨hr, hok, rfl⟩
  · exact ⟨_, exec_lutLookup_of_race (hrace ▸ hr) v, agree_lutRace h⟩
  · rw [htbl, hparams] at hok hk
    exact ⟨_, exec_lutLookup_of_valid (hrace ▸ hr) hok hk, agree_setLookup h true k, rfl⟩
  · rw [htbl, hparams] at hok
    exact ⟨_, exec_lutLookup_of_invalid (hrace ▸ hr) v hok, agree_setLookup h false pZero, rfl⟩

/-! ### Output mapper -/

theorem answersAlike_mapSetT4 {x : B32} (h : Agree .map s s') (hx : exec (.mapSetT4 x) s = .next t) :
    AnswersAlike (.mapSetT4 x) s' t := by
  obtain ⟨-, h20, hres, hout⟩ := h.unit
  cases hx
  exact ⟨_, rfl, { h with unit := ⟨rfl, h20, hres, hout⟩ }, rfl⟩

theorem answersAlike_mapSetT20 {x : B32} (h : Agree .map s s') (hx : exec (.mapSetT20 x) s = .next t) :
    AnswersAlike (.mapSetT20 x) s' t := by
  obtain ⟨h4, -, hres, hout⟩ := h.unit
  cases hx
  exact ⟨_, rfl, { h with unit := ⟨h4, rfl, hres, hout⟩ }, rfl⟩

/-- `Calc` has one value in both states. -/
theorem exists_calcCurrent_of_agree (h : Agree .map s s') (x : B32) :
    ∃ y, calcCurrent s.mapT4 s.mapT20 x = y ∧ calcCurrent s'.mapT4 s'.mapT20 x = y := by
  obtain ⟨h4, h20, -⟩ := h.unit
  exact ⟨_, rfl, by rw [h4, h20]⟩

theorem answersAlike_mapCalc {x : B32} (h : Agree .map s s') (hx : exec (.mapCalc x) s = .next t) :
    AnswersAlike (.mapCalc x) s' t := by
  obtain ⟨h4, h20, -, hout⟩ := h.unit
  obtain ⟨y, hy, hy'⟩ := exists_calcCurrent_of_agree h x
  cases (exec_mapCalc_of_calcCurrent hy).symm.trans hx
  exact ⟨_, exec_mapCalc_of_calcCurrent hy', { h with unit := ⟨h4, h20, rfl, hout⟩ }, rfl⟩

theorem answersAlike_mapUpdate {x : B32} (h : Agree .map s s') (hx : exec (.mapUpdate x) s = .next t) :
    AnswersAlike (.mapUpdate x) s' t := by
  obtain ⟨h4, h20, -⟩ := h.unit
  obtain ⟨y, hy, hy'⟩ := exists_calcCurrent_of_agree h x
  cases (exec_mapUpdate_of_calcCurrent hy).symm.trans hx
  exact ⟨_, exec_mapUpdate_of_calcCurrent hy', ⟨⟨h4, h20, rfl, rfl⟩, h.platform, rfl⟩, rfl⟩

theorem answersAlike_mapSetCurrent {x : B32} (h : Agree .map s s') (hx : exec (.mapSetCurrent x) s = .next t) :
    AnswersAlike (.mapSetCurrent x) s' t := by
  obtain ⟨h4, h20, hres, -⟩ := h.unit
  cases hx
  exact ⟨_, rfl, ⟨⟨h4, h20, hres, rfl⟩, h.platform, rfl⟩, rfl⟩

theorem answersAlike_of_agree {i : Instr} (h : Agree (unitOf i) s s') (hi : i ≠ .medMaf) (hx : exec i s = .next t) :
    AnswersAlike i s' t := by
  cases i with
  | nop => exact answersAlike_nop h hx
  | crcInit => exact answersAlike_crcInit h hx
  | crcByte => exact answersAlike_crcByte h hx
  | rxFeed => exact answersAlike_rxFeed h hx
  | rxReset => exact answersAlike_rxReset h hx
  | txPlWrite => exact answersAlike_txPlWrite h hx
  | txAck => exact answersAlike_txAck h hx
  | txData => exact answersAlike_txData h hx
  | txReport => exact answersAlike_txReport h hx
  | medPush => exact answersAlike_medPush h hx
  | medEval => exact answersAlike_medEval h hx
  | medClear => exact answersAlike_medClear h hx
  | mafPush => exact answersAlike_mafPush h hx
  | mafClear => exact answersAlike_mafClear h hx
  | medMaf => exact absurd rfl hi
  | lutVerify => exact answersAlike_lutVerify h hx
  | lutLookup => exact answersAlike_lutLookup h hx
  | mapSetT4 => exact answersAlike_mapSetT4 h hx
  | mapSetT20 => exact answersAlike_mapSetT20 h hx
  | mapCalc => exact answersAlike_mapCalc h hx
  | mapUpdate => exact answersAlike_mapUpdate h hx
  | mapSetCurrent => exact answersAlike_mapSetCurrent h hx

end

/-- Settles O57, op by op; MED_MAF apart. -/
theorem opsReadOnlyTheirOwnUnit : Obligations.OpsReadOnlyTheirOwnUnit := by
  intro i s s' t hx hunit hplat hev hmed
  by_cases hi : i = .medMaf
  · subst hi
    obtain ⟨t', hx', h, hrc, hmed'⟩ := answersAlike_medMaf ⟨hunit, hplat, hev⟩ (hmed rfl) hx
    exact ⟨t', hx', h.unit, h.platform, hrc, h.event, fun _ => hmed'⟩
  · obtain ⟨t', hx', h, hrc⟩ := answersAlike_of_agree ⟨hunit, hplat, hev⟩ hi hx
    exact ⟨t', hx', h.unit, h.platform, hrc, h.event, fun hm => absurd hm hi⟩

end Sys2Proof.Machine
end

section
/-! Steps and clock edges (20_memory.md R89, R90; 60_exceptions.md R417; 70_reset_and_hazards.md R440 to R453): what a step
without an op does, and how an op accepted at clock grain comes to its one architectural step. -/

namespace Sys2Proof.Machine

/-! ## Steps -/

/-- Settles O8: `tblChanges` is the record that the statement writes out. -/
theorem stepWithTableWritesRunsTheDecodedOp : Obligations.StepWithTableWritesRunsTheDecodedOp := by
  rintro s u w cs rest m hin hm rfl
  have hstep := step_of_op hin hm
  exact ⟨fun _ hi => hstep.trans (runBundle_of_decode_ok hi _), fun _ he => hstep.trans (runBundle_of_decode_error he _)⟩

section
variable {s : State} {rest : List Input}

theorem step_of_no_input (h : s.inputs = []) : step s = .next s.endPulse := by
  rw [step, h]

theorem step_of_quiet (h : s.inputs = .quiet :: rest) : step s = .next ({ s with inputs := rest } : State).endPulse := by
  rw [step, h]
  rfl

theorem step_of_reset (h : s.inputs = .reset :: rest) : step s = .next ({ s with inputs := rest } : State).applyReset := by
  rw [step, h]
  rfl

theorem applyWrites_singleton {p : Params} {m : Memory} {a : Nat} {b : Byte} (ha : a < p.tblBytes) :
    applyWrites p m [(a, b)] = some (m.write a b) := if_pos ha

theorem step_of_tblWrite {a : Nat} {b : Byte} (h : s.inputs = .tblWrite a b :: rest) (ha : a < s.params.tblBytes) :
    step s = .next { s with inputs := rest, event := .none, tbl := s.tbl.write a b } := by
  simp only [step, h, runInput, writeTable, applyWrites_singleton ha, State.endPulse]

end

/-- Settles O9, one clause for each kind of input. -/
theorem stepsWithoutAnOp : Obligations.StepsWithoutAnOp := fun _ _ =>
  ⟨step_of_no_input, step_of_quiet, step_of_reset, fun a b hin ha hwf =>
    ⟨_, step_of_tblWrite hin ha, rfl, fun x => Memory.get_write a x b hwf⟩⟩

/-! ## Edges without an op in progress -/

/-- No byte written leaves the state. -/
theorem writeTable_nil (s : State) : writeTable [] s = .next s := rfl

theorem tick_of_reset {p : Pins} {c : Clocked} (h : p.rst = true) : tick p c = resetClock c p.tblWr := by
  rw [tick, h, if_pos rfl]

section
variable {p : Pins} {c : Clocked} (hrst : p.rst = false)
include hrst

theorem tick_of_early_op (hl : c.live = false) (hv : p.cmdValid = true) : tick p c = .refused .opBeforeReset := by
  simp only [tick, hrst, hl, hv, Bool.false_eq_true, Bool.not_false, if_false, if_true]

variable (hl : c.live = true)
include hl

theorem tick_of_idle (hf : c.flight = none) (hv : p.cmdValid = false) (hw : p.tblWr = []) :
    tick p c = .next { c with arch := c.arch.endPulse, clk := c.clk + 1 } := by
  simp only [tick, hrst, hl, hf, hv, hw, Bool.false_eq_true, Bool.not_true, if_false, idleClock, writeTable_nil]

theorem tick_of_accept (hf : c.flight = none) (hv : p.cmdValid = true) : tick p c = acceptClock p c := by
  simp only [tick, hrst, hl, hf, hv, Bool.false_eq_true, Bool.not_true, if_false, if_true]

theorem tick_of_busy {f : InFlight} (hf : c.flight = some f) : tick p c = busyClock p f c := by
  simp only [tick, hrst, hl, hf, Bool.false_eq_true, Bool.not_true, if_false]

end

/-- Settles O60: the two branches of `tick` that offer no op to the machine. -/
theorem eventPulseEndsAndEarlyOpsAreRefused : Obligations.EventPulseEndsAndEarlyOpsAreRefused := fun _ _ hrst hw =>
  ⟨fun hl hf hv => ⟨_, tick_of_idle hrst hl hf hv hw, rfl, hf⟩, tick_of_early_op hrst⟩

/-! ## Reset (R440, R442) -/

section
variable {p : Pins} {c : Clocked}

/-- While `rst = 1` the block is not ready and shows no event. -/
theorem cmdReady_of_rst (h : p.rst = true) : cmdReady p c = false := by
  simp only [cmdReady, portsValid_of_busy (.inl h), h, Bool.not_true, Bool.false_and, ite_self]

theorem visibleEvents_of_rst (h : p.rst = true) : visibleEvents p c = ⟨false, false, false, false⟩ := by
  simp only [visibleEvents, portsValid_of_busy (.inl h), h, Bool.true_or, Bool.false_eq_true, if_false, if_true]

/-- The bytes written since the acceptance of the op in progress, if there is one. -/
theorem resetClock_of_applyWrites {written : List Host.Cell} {m : Memory}
    (hm : applyWrites c.arch.params c.arch.tbl (c.flight.elim [] InFlight.written ++ written) = some m) :
    resetClock c written = .next
      { c with arch := ({ c.arch with tbl := m } : State).applyReset, flight := none, live := true, clk := c.clk + 1 } := by
  cases hf : c.flight with
  | none | some =>
    rw [hf] at hm
    simp only [Option.elim] at hm
    simp only [resetClock, hf, writeTable, hm]

end

/-- The ports show nothing of what a reset keeps. -/
theorem portsShow_reset {c : Clocked} {s : State} (h : portsShow c s.applyReset) : portsShow c State.reset := h

/-- Settles O59. -/
theorem resetEdgeAtAnyClock : Obligations.ResetEdgeAtAnyClock := fun _ _ _ hrst hm =>
  ⟨cmdReady_of_rst hrst, visibleEvents_of_rst hrst, _, (tick_of_reset hrst).trans (resetClock_of_applyWrites hm), rfl, rfl,
    rfl, portsShow_reset (portsShow_of_idle rfl rfl)⟩

/-! ## An op from its acceptance to its completion (R450 to R453) -/

/-- The step of an op ends the pulse of the op before itself, so it does not matter that an edge has ended it already. -/
theorem step_op_endPulse (s : State) (w : Bundle) (cs : List Host.Cell) :
    step { s.endPulse with inputs := .op w cs :: s.inputs } = step { s with inputs := .op w cs :: s.inputs } := by
  simp only [step, runInput, runOp, writeTable, State.endPulse]
  cases applyWrites s.params s.tbl cs <;> rfl

theorem completeOp_of_step {c : Clocked} {w : Bundle} {written : List Host.Cell} {t : State}
    (h : step { c.arch with inputs := .op w written :: c.arch.inputs } = .next t) :
    completeOp c w written = .next { c with arch := t, flight := none, clk := c.clk + 1 } := by
  rw [completeOp, h]

theorem runTicks_cons {c c' : Clocked} {p : Pins} (h : tick p c = .next c') (ps : List Pins) :
    runTicks (p :: ps) c = runTicks ps c' := by
  rw [runTicks, h]

theorem runTicks_append {c' : Clocked} (qs : List Pins) : ∀ {ps : List Pins} {c : Clocked}, runTicks ps c = .next c' →
    runTicks (ps ++ qs) c = runTicks qs c'
  | [], c, h => by
    cases h
    rfl
  | p :: ps, c, h => by
    rw [runTicks] at h
    split at h
    · next c₁ hp => rw [List.cons_append, runTicks_cons hp, runTicks_append qs h]
    · cases h
    · cases h

/-- The op in progress `f` after the edges `ps`, at which the writer went on writing. -/
def InFlight.after (f : InFlight) (ps : List Pins) : InFlight :=
  ⟨f.word, f.left - ps.length, f.written ++ ps.flatMap Pins.tblWr⟩

/-- Edges that are too few to complete the op only count, and collect the writer's bytes. -/
theorem runTicks_of_busy : ∀ {ps : List Pins} {c : Clocked} {f : InFlight}, c.live = true → c.flight = some f →
    ps.length < f.left → (∀ p ∈ ps, p.rst = false) →
    runTicks ps c = .next { c with flight := some (f.after ps), clk := c.clk + ps.length }
  | [], c, f, _, hf, _, _ => by
    obtain ⟨word, left, written⟩ := f
    simp [runTicks, InFlight.after, ← hf]
  | p :: ps, c, f, hl, hf, hlen, hrst => by
    rw [List.length_cons] at hlen
    have hbusy : tick p c =
        .next { c with flight := some ⟨f.word, f.left - 1, f.written ++ p.tblWr⟩, clk := c.clk + 1 } := by
      rw [tick_of_busy (hrst p List.mem_cons_self) hl hf, busyClock, if_neg (by omega)]
    have hrest := runTicks_of_busy (ps := ps) (f := ⟨f.word, f.left - 1, f.written ++ p.tblWr⟩)
      (c := { c with flight := some ⟨f.word, f.left - 1, f.written ++ p.tblWr⟩, clk := c.clk + 1 }) hl rfl
      (by dsimp only; omega) fun q hq => hrst q (List.mem_cons_of_mem p hq)
    rw [runTicks_cons hbusy, hrest]
    simp [InFlight.after, Nat.sub_sub, Nat.add_comm, Nat.add_left_comm]

/-- The last edge of an op completes it. -/
theorem tick_of_last {p : Pins} {c : Clocked} {f : InFlight} {t : State} (hl : c.live = true) (hf : c.flight = some f)
    (hrst : p.rst = false) (hlast : f.left ≤ 1)
    (h : step { c.arch with inputs := .op f.word (f.written ++ p.tblWr) :: c.arch.inputs } = .next t) :
    tick p c = .next { c with arch := t, flight := none, clk := c.clk + 1 } := by
  rw [tick_of_busy hrst hl hf, busyClock, if_pos hlast, completeOp_of_step h]

/-- The block after an edge that has accepted the op `f`, and then the edges `ps`, too few to complete it. -/
def Clocked.accepted (c : Clocked) (f : InFlight) (ps : List Pins) : Clocked :=
  { c with arch := c.arch.endPulse, flight := some (f.after ps), clk := c.clk + 1 + ps.length }

section
variable {c : Clocked} {w : Bundle} {written : List Host.Cell} (hl : c.live = true) (hf : c.flight = none)
include hl hf

/-- The edge that accepts a bundle of latency 1 completes it. -/
theorem tick_accept_of_latency_one {t : State} (hlat : latency c (opField w) = 1)
    (h : step { c.arch with inputs := .op w written :: c.arch.inputs } = .next t) :
    tick ⟨false, true, w, written⟩ c = .next { c with arch := t, flight := none, clk := c.clk + 1 } := by
  rw [tick_of_accept rfl hl hf rfl, acceptClock, if_pos hlat, completeOp_of_step h]

/-- The edge that accepts a bundle of a longer latency ends the pulse of the op before. -/
theorem tick_accept_of_latency_gt {n : Nat} (hlat : latency c (opField w) = n + 1) (hn : 0 < n) :
    tick ⟨false, true, w, written⟩ c =
      .next { c with arch := c.arch.endPulse, flight := some ⟨w, n, written⟩, clk := c.clk + 1 } := by
  rw [tick_of_accept rfl hl hf rfl, acceptClock, if_neg (by dsimp only; omega)]
  simp only [hlat, Nat.add_sub_cancel]

/-- After the accepting edge and fewer than all further edges the op is still in progress. -/
theorem runTicks_accept_of_busy {n : Nat} {ps : List Pins} (hlat : latency c (opField w) = n + 1) (hps : ps.length < n)
    (hrst : ∀ p ∈ ps, p.rst = false) :
    runTicks (⟨false, true, w, written⟩ :: ps) c = .next (c.accepted ⟨w, n, written⟩ ps) := by
  rw [runTicks_cons (tick_accept_of_latency_gt hl hf hlat (by omega))]
  exact runTicks_of_busy hl rfl hps hrst

/-- With the last of the edges that its latency asks for, the op has taken effect. -/
theorem runTicks_accept_completes {waits : List Pins} {t : State} (hlat : latency c (opField w) = waits.length + 1)
    (hrst : ∀ p ∈ waits, p.rst = false)
    (h : step { c.arch with inputs := .op w (written ++ waits.flatMap Pins.tblWr) :: c.arch.inputs } = .next t) :
    ∃ k, runTicks (⟨false, true, w, written⟩ :: waits) c = .next { c with arch := t, flight := none, clk := k } := by
  rcases List.eq_nil_or_concat' waits with rfl | ⟨ps, last, rfl⟩
  · rw [List.flatMap_nil, List.append_nil] at h
    exact ⟨_, runTicks_cons (tick_accept_of_latency_one hl hf hlat h) []⟩
  · have hbusy := runTicks_accept_of_busy (written := written) (ps := ps) hl hf hlat (by simp)
      fun p hp => hrst p (List.mem_append_left _ hp)
    rw [← step_op_endPulse, List.flatMap_append, List.flatMap_singleton, ← List.append_assoc] at h
    have hlast := tick_of_last (p := last) (c := c.accepted ⟨w, (ps ++ [last]).length, written⟩ ps) hl rfl
      (hrst last (by simp)) (by simp [InFlight.after]) h
    rw [← List.cons_append, runTicks_append [last] hbusy]
    exact ⟨_, runTicks_cons hlast []⟩

end

section
variable {c : Clocked} (hl : c.live = true)
include hl

/-- While an op is in progress the block is not ready and shows no event. -/
theorem cmdReady_of_busy (p : Pins) (hf : c.flight ≠ none) : cmdReady p c = false := by
  rw [cmdReady, hl, if_pos rfl, portsValid_of_busy (.inr hf)]

theorem visibleEvents_of_busy (p : Pins) (hf : c.flight ≠ none) : visibleEvents p c = ⟨false, false, false, false⟩ := by
  simp only [visibleEvents, portsValid_of_busy (.inr hf), hl, Bool.or_true, Bool.false_eq_true, if_false, if_true]

/-- A clock without an op leaves the result on the ports and ends its event (R452). -/
theorem portsShow_after_idle {q : Pins} (hf : c.flight = none) (hrst : q.rst = false) (hv : q.cmdValid = false)
    (hw : q.tblWr = []) : ∃ c', tick q c = .next c' ∧ portsShow c' { c.arch with event := .none } :=
  ⟨_, tick_of_idle hrst hl hf hv hw, portsShow_of_idle (c := { c with arch := c.arch.endPulse, clk := c.clk + 1 }) hl hf⟩

end

/-- Settles O58: the edges before the last one find the op in progress, and the last one takes the architectural step on all
the bytes written since the acceptance. -/
theorem acceptedOpCompletesAfterItsLatency : Obligations.AcceptedOpCompletesAfterItsLatency := by
  intro c w written waits t hl hf hlat hrst hstep
  constructor
  · obtain ⟨k, hrun⟩ := runTicks_accept_completes hl hf hlat.symm hrst hstep
    exact ⟨_, hrun, rfl, rfl, hl, portsShow_of_idle (c := { c with arch := t, flight := none, clk := k }) hl rfl,
      fun q hq hv hw => portsShow_after_idle (c := { c with arch := t, flight := none, clk := k }) hl rfl hq hv hw⟩
  · intro k c' p hk hrun
    have hbusy := runTicks_accept_of_busy (written := written) (ps := waits.take k) hl hf hlat.symm
      (by rw [List.length_take]; omega) fun q hq => hrst q (List.mem_of_mem_take hq)
    cases hbusy.symm.trans hrun
    exact ⟨cmdReady_of_busy (c := c.accepted ⟨w, waits.length, written⟩ (waits.take k)) hl p nofun,
      visibleEvents_of_busy (c := c.accepted ⟨w, waits.length, written⟩ (waits.take k)) hl p nofun⟩

end Sys2Proof.Machine
end
